-- ==== Sys2Proof/Word.lean ====
section
/-! DEFINITION. The word types of the Lorbin 4820 model: bytes, tags, epoch numbers and sender signatures.
Everything the manual counts or addresses (cell indices, positions, occupancies, counters) is a `Nat`. -/

namespace Sys2Proof

/-- A byte of a cell, a frame or the DRAM array (R1). -/
abbrev Byte := BitVec 8

/-- A read tag, 0..255 (R142, R146). -/
abbrev Tag := BitVec 8

/-- An epoch number, a 16-bit count that wraps from 65535 to 0 (R53). -/
abbrev Epoch := BitVec 16

/-- A sender signature, 0000h..FFFFh (R10, R41). -/
abbrev Signature := BitVec 16

end Sys2Proof
end

