-- ==== Sys2Proof/Config.lean ====
section
/-! DEFINITION. What the manual leaves open, as free values: constants without a body, so that no proof can see
what they are. -/

namespace Sys2Proof

/-- FREE VALUE (R123, log entry 3). The byte the array holds at a byte address (256 times the cell index, plus the
cell byte) that nothing has written since power was applied for the given time (a count kept in `Dram.powerUps`). -/
opaque Config.powerUpByte : Nat → Nat → Byte

/-- FREE VALUE (R123, log entry 4). Whether a DRAM write in flight when RSTN falls leaves the written bytes (`true`)
or the former bytes (`false`), for the n-th power-on reset (a count kept in `Dram.resets`). -/
opaque Config.cutWriteLands : Nat → Bool

end Sys2Proof
end

