-- ==== Sys2Proof/Syntax.lean ====
section
/-! DEFINITION. The commands of the Lorbin 4820: one constructor for each row of spec/opcode_table.json. A row is one
whole, indivisible step of the part. A take acts on the request at the head of the Request Queue, so it carries no
operands of its own: they arrived with the frame (R142, R144). -/

namespace Sys2Proof

/-- What begins a power-on reset (R179). -/
inductive ResetCause where
  /-- RSTN falls with power held; the array keeps its contents (R123). -/
  | rstnFalls
  /-- Power is applied; the array holds no data the part guarantees (R123). -/
  | powerApplied
  deriving DecidableEq, Repr

/-- The commands, in the order of the opcode table. -/
inductive Instr where
  /-- POWER_ON_RESET (R179). -/
  | powerOnReset (cause : ResetCause)
  /-- RSTN_RISE (R179); `capsel` is the level of the CAPSEL strap, `true` for high. -/
  | rstnRise (capsel : Bool)
  /-- END_OF_INIT (R135, R55). -/
  | endOfInit
  /-- LANE_LOCK (R140); bit n of `lanes` is set when receive lane n locks at this event. -/
  | laneLock (lanes : BitVec 8)
  /-- TRAINING_SUCCESS (R141). -/
  | trainingSuccess
  /-- TRAINING_FAILURE (R141). -/
  | trainingFailure
  /-- LANE_LOCK_LOSS (R140) of one receive lane. -/
  | laneLockLoss (lane : Fin 8)
  /-- LINK_RESET (R140): a link-reset frame is recognised. -/
  | linkReset
  /-- REQUEST_FRAME_ARRIVAL (R142); `frame` is the whole frame as it arrived, its check word included (R178). -/
  | requestFrameArrival (frame : List Byte)
  /-- CELL_WRITE (R148): the take of a CELL_WRITE at the head of the Request Queue. -/
  | cellWrite
  /-- WORD_WRITE (R148): the take of a WORD_WRITE at the head of the Request Queue. -/
  | wordWrite
  /-- CELL_READ (R149): the take of a CELL_READ at the head of the Request Queue. -/
  | cellRead
  /-- WORD_READ (R149): the take of a WORD_READ at the head of the Request Queue. -/
  | wordRead
  /-- SETTING_WRITE (R159): the take of a control-window write that carries a word of staged settings. -/
  | settingWrite
  /-- STORE_SETTINGS_WRITE (R99): the take of a control-window write that carries device word 1. -/
  | storeSettingsWrite
  /-- QUIET_DELAY_WRITE (R136): the take of a control-window write that carries device word 2. -/
  | quietDelayWrite
  /-- ALERT_LINE_WRITE (R177): the take of a control-window write that carries one of device words 3..6. -/
  | alertLineWrite
  /-- RING_ENABLE (R36): the take of a control-window write that carries an enable word of 1. -/
  | ringEnable
  /-- RING_DISABLE (R38): the take of a control-window write that carries an enable word of 0. -/
  | ringDisable
  /-- SOFT_RESET (R165): the take of a control-window write that carries a soft-reset word of 1. -/
  | softReset
  /-- COUNTER_CLEAR (R163): the take of a control-window write that carries a counter-clear word of 1. -/
  | counterClear
  /-- FLAG_CLEAR (R164): the take of a control-window write that carries a flag-clear word. -/
  | flagClear
  /-- EPOCH_EXPIRY (R53). -/
  | epochExpiry
  /-- REFRESH_TIMER_EXPIRY (R133). -/
  | refreshTimerExpiry
  /-- READ_COMPLETION (R132). -/
  | readCompletion
  /-- WRITE_COMPLETION (R124). -/
  | writeCompletion
  /-- RETIREMENT_COMPLETION (R113). -/
  | retirementCompletion
  /-- REFRESH_COMPLETION (R124). -/
  | refreshCompletion
  /-- QUIET_TIMER_EXPIRY (R136). -/
  | quietTimerExpiry
  /-- WAKING_END (R135). -/
  | wakingEnd
  /-- RESPONSE_SENT (R152). -/
  | responseSent
  /-- CREDIT_FRAME_SENT (R143). -/
  | creditFrameSent
  /-- PULSE_END (R176) of one alert line. -/
  | pulseEnd (line : Fin 4)
  deriving DecidableEq, Repr

end Sys2Proof
end

