-- ==== Sys2Proof/Decode.lean ====
section
/-! DEFINITION. The reading of a command from the bits of the opcode table. The table of this part gives no row any
bits (every row's list of fields is empty and no row has fixed bits), so no word spells a command. The words the part
itself decodes, request frames and control records, are decoded in Machine/Operands.lean. -/

namespace Sys2Proof

/-- The command that the low `nbits` bits of `w` spell by the opcode table: none, since no row gives bits. -/
def decodeTableWord (nbits w : Nat) : Option Instr :=
  match nbits, w with
  | _, _ => none

end Sys2Proof
end

