-- ==== Sys2Proof/Machine/State.lean ====
section
/-! DEFINITION. The state of the Lorbin 4820, block by block as 00_scope.md lists the blocks, as plain data; the
reasons a step can stop; and the state after a power-on reset. -/

namespace Sys2Proof.Machine

/-! ### Why a step can stop -/

/-- The faults of the part. It has none: the manual gives every event an outcome, so this type has no constructor. -/
inductive Fault where
  deriving DecidableEq, Repr

/-- The refusals of the model. -/
inductive Refusal where
  /-- Raised by an arm of `exec` that has no meaning yet; no arm raises it now. Safe: the model stops where the part
  would go on. -/
  | notModelled (mnemonic : String)
  deriving DecidableEq, Repr

/-! ### Ring Tracker, Fan-in Table, Sojourn Estimator and Mark Unit: the state of one ring -/

/-- The order of a ring's positions in memory (R14). -/
inductive Direction where
  | up | down
  deriving DecidableEq, Repr

/-- A ring geometry (R14). The fields are wide enough for what software may write: a staged geometry is kept as
written (R17). -/
structure Geometry where
  /-- base B, the first cell of the ring's region -/
  base : Nat
  /-- lead LC, the number of lead cells -/
  lead : Nat
  /-- length N, the number of ring positions -/
  length : Nat
  direction : Direction
  deriving DecidableEq, Repr

/-- The all-zero geometry (R17, R39). -/
def Geometry.zero : Geometry := { base := 0, lead := 0, length := 0, direction := .up }

/-- The frame kinds of a packet summary (R6). -/
inductive FrameKind where
  | ipv4 | ipv6 | other
  deriving DecidableEq, Repr

/-- The ECN codepoints (R11). -/
inductive Ecn where
  /-- 00 -/
  | notEct
  /-- 10 -/
  | ect0
  /-- 01 -/
  | ect1
  /-- 11 -/
  | ce
  deriving DecidableEq, Repr

/-- The decisions of the Mark Unit (R30, R79). -/
inductive Decision where
  | none | mark | pass | ceAlready | unmarkable
  deriving DecidableEq, Repr

/-- A packet record (R30). -/
structure PacketRecord where
  /-- header position, 0..N−1 -/
  pos : Nat
  kind : FrameKind
  /-- header offset, cell byte 22, 26 or 30; absent for other -/
  offset : Option Nat
  /-- ECN codepoint at arrival -/
  ecn : Ecn
  exempt : Bool
  /-- copies total, 1..15 -/
  total : Nat
  /-- copies left, 1..copies total while listed -/
  left : Nat
  decision : Decision
  /-- arrival epoch -/
  arrival : Epoch
  deriving DecidableEq, Repr

/-- An entry of a Sender List (R41). -/
structure Sender where
  signature : Signature
  /-- last-seen epoch -/
  lastSeen : Epoch
  /-- packets since entry, 1..65535 -/
  packets : Nat
  deriving DecidableEq, Repr

/-- The marking policies (R57, R81). -/
inductive Policy where
  | spend | carry
  deriving DecidableEq, Repr

/-- A ring's staged settings: the fields of ring words 2..5, kept as written (R162). -/
structure StagedSettings where
  tl : Nat
  th : Nat
  ps : Nat
  ft : Nat
  ml : Nat
  dw : Nat
  qf : Nat
  hh : Nat
  policy : Nat
  holdEnable : Nat
  quota : Nat
  alertGroup : Nat
  deriving DecidableEq, Repr

/-- The defaults of the staged ring settings (R57, R162). -/
def StagedSettings.default : StagedSettings :=
  { tl := 64, th := 320, ps := 64, ft := 6, ml := 1, dw := 3, qf := 32, hh := 32,
    policy := 0, holdEnable := 1, quota := 256, alertGroup := 0 }

/-- A ring's active settings, after the clamps (R57). -/
structure Settings where
  /-- low sojourn threshold TL -/
  tl : Nat
  /-- high sojourn threshold TH -/
  th : Nat
  /-- peak share PS -/
  ps : Nat
  /-- fan-in threshold FT -/
  ft : Nat
  /-- ramp limit ML -/
  ml : Nat
  /-- drain weight DW -/
  dw : Nat
  /-- incast floor QF -/
  qf : Nat
  /-- hold horizon HH -/
  hh : Nat
  policy : Policy
  holdEnable : Bool
  quota : Nat
  alertGroup : Fin 4
  deriving DecidableEq, Repr

/-- The defaults of the active ring settings (R57, R75). -/
def Settings.default : Settings :=
  { tl := 64, th := 320, ps := 64, ft := 6, ml := 1, dw := 3, qf := 32, hh := 32,
    policy := .spend, holdEnable := true, quota := 256, alertGroup := 0 }

/-- The states of a ring (R67). OFF is also the Ring Table's enable state (R14, R171). -/
inductive RingState where
  | off | clear | congested | incast | stalled
  deriving DecidableEq, Repr

/-- The 16 counters of a ring (R173), each 0..2^32 − 1. -/
structure RingCounters where
  cellsIn : Nat
  cellsOut : Nat
  untracked : Nat
  resyncs : Nat
  overruns : Nat
  rewrites : Nat
  skippedCells : Nat
  skippedUnread : Nat
  lostRecords : Nat
  strayReads : Nat
  marked : Nat
  ceAlready : Nat
  unmarkable : Nat
  exempt : Nat
  admitted : Nat
  bypassed : Nat
  deriving DecidableEq, Repr

def RingCounters.zero : RingCounters :=
  { cellsIn := 0, cellsOut := 0, untracked := 0, resyncs := 0, overruns := 0, rewrites := 0, skippedCells := 0,
    skippedUnread := 0, lostRecords := 0, strayReads := 0, marked := 0, ceAlready := 0, unmarkable := 0, exempt := 0,
    admitted := 0, bypassed := 0 }

/-- Everything the part keeps for one ring. -/
structure Ring where
  /-- the ring's state; OFF means disabled (R14, R67) -/
  state : RingState
  /-- active geometry, all zero while OFF (R14) -/
  active : Geometry
  /-- staged geometry, as written (R17) -/
  staged : Geometry
  /-- fill position f (R18) -/
  fillPos : Nat
  /-- drain position d (R18) -/
  drainPos : Nat
  /-- occupancy Q (R18) -/
  occ : Nat
  /-- epoch read count c (R18, R29) -/
  reads : Nat
  /-- the ring's packet records, oldest first (R31) -/
  records : List PacketRecord
  /-- the ring's Sender List, most recent first (R41) -/
  senders : List Sender
  /-- drain estimate D (R61) -/
  drain : Nat
  /-- ramp level L (R72) -/
  ramp : Nat
  /-- stall count (R71) -/
  stall : Nat
  /-- last T (R74) -/
  lastT : Nat
  /-- active settings (R57) -/
  settings : Settings
  /-- staged settings, held by the SWU (R162) -/
  stagedSettings : StagedSettings
  /-- mark credit A (R77) -/
  credit : Nat
  /-- the ring's counters (R173) -/
  counters : RingCounters
  deriving DecidableEq, Repr

/-- A ring after a power-on reset, and after a soft reset's completion (R39, R50, R75, R77, R162). -/
def Ring.reset : Ring :=
  { state := .off, active := .zero, staged := .zero, fillPos := 0, drainPos := 0, occ := 0, reads := 0, records := [],
    senders := [], drain := 0, ramp := 0, stall := 0, lastT := 0, settings := .default, stagedSettings := .default,
    credit := 0, counters := .zero }

/-! ### Cell Link Port and Request Front End -/

/-- The link states (R140). -/
inductive LinkState where
  | down | training | up
  deriving DecidableEq, Repr

/-- What the one transmitter is doing (R151). A frame under way is held with its bytes (R178). -/
inductive Transmitter where
  | idle
  /-- a CREDIT frame -/
  | credit (frame : List Byte)
  /-- a READ_DATA frame of the response entry with this number -/
  | readData (entry : Nat) (frame : List Byte)
  deriving DecidableEq, Repr

/-- The Cell Link Port. -/
structure LinkPort where
  /-- the receive lanes locked to the TM's, one bit a lane (R140) -/
  lanes : BitVec 8
  state : LinkState
  /-- the number of the training attempt under way since the link left DOWN, 0 outside TRAINING (R141) -/
  attempt : Nat
  /-- credits owed to the TM, 0..64 (R143) -/
  owed : Nat
  tx : Transmitter
  /-- whether the frame sent last was a CREDIT frame (R151) -/
  lastWasCredit : Bool
  deriving DecidableEq, Repr

def LinkPort.reset : LinkPort :=
  { lanes := 0, state := .down, attempt := 0, owed := 0, tx := .idle, lastWasCredit := false }

/-- An accepted request (R142). -/
inductive Request where
  | cellWrite (cell : Nat) (data : List Byte)
  | wordWrite (cell : Nat) (word : Nat) (data : List Byte)
  | cellRead (cell : Nat) (tag : Tag)
  | wordRead (cell : Nat) (word : Nat) (tag : Tag)
  deriving DecidableEq, Repr

/-- What a read asks for (R125, R149). -/
inductive Extent where
  | cell
  | word (w : Nat)
  deriving DecidableEq, Repr

/-- The status of a response (R149). -/
inductive Status where
  | ok | range | tagReused
  deriving DecidableEq, Repr

/-- The states of a response entry that is not FREE (R149). A FREE entry is one the Response Buffer's list does not
hold. -/
inductive EntryState where
  | waiting | ready | sending
  deriving DecidableEq, Repr

/-- The frame kind and header offset that go with a MARK decision (R89, R149). -/
structure HeaderPlace where
  kind : FrameKind
  offset : Nat
  deriving DecidableEq, Repr

/-- A response entry that is not FREE (R149). -/
structure Response where
  /-- the entry's number, 0..63 -/
  id : Nat
  state : EntryState
  tag : Tag
  extent : Extent
  status : Status
  /-- 256 or 8 bytes once in place, empty before -/
  data : List Byte
  decision : Decision
  /-- present when the decision is MARK -/
  header : Option HeaderPlace
  /-- a store slot, or none (R109) -/
  claim : Option Nat
  deriving DecidableEq, Repr

/-- The Request Front End. -/
structure FrontEnd where
  /-- the Request Queue, oldest first (R144) -/
  rq : List Request
  /-- the response entries that are not FREE (R149) -/
  responses : List Response
  /-- the numbers of the READY entries in the order they became READY (R150) -/
  ready : List Nat
  /-- the outstanding tags (R146) -/
  tags : List Tag
  deriving DecidableEq, Repr

def FrontEnd.reset : FrontEnd := { rq := [], responses := [], ready := [], tags := [] }

/-! ### Sojourn Estimator, Fan-in Table and Service Window Unit: the state of the device -/

/-- The Sojourn Estimator's device state (R53, R54, R59). -/
structure Estimator where
  epoch : Epoch
  /-- the length in µs the epoch timer was last loaded with; none while it is stopped (R55) -/
  timer : Option Nat
  /-- active EL -/
  el : Nat
  /-- active SL -/
  sl : Nat
  deriving DecidableEq, Repr

def Estimator.reset : Estimator := { epoch := 0, timer := none, el := 20, sl := 4 }

/-- The Service Window Unit's device state (R162, R165). -/
structure Windows where
  stagedEl : Nat
  stagedW : Nat
  stagedSl : Nat
  stagedRefresh : Nat
  /-- soft-reset-in-progress flag -/
  softReset : Bool
  deriving DecidableEq, Repr

def Windows.reset : Windows := { stagedEl := 20, stagedW := 8, stagedSl := 4, stagedRefresh := 39, softReset := false }

/-! ### Hold Store -/

/-- The states of a store slot that holds a cell (R96). A FREE slot is one the store's list does not hold. -/
inductive SlotState where
  | held | retiring | retiringWritten
  deriving DecidableEq, Repr

/-- A store slot that is not FREE (R96). -/
structure Slot where
  /-- the slot's number, 0..2047 -/
  num : Nat
  state : SlotState
  /-- cell index -/
  cell : Nat
  data : List Byte
  /-- remaining reads, 0..15 -/
  remaining : Nat
  /-- ring number -/
  ring : Fin 64
  /-- admission epoch -/
  admitted : Epoch
  deriving DecidableEq, Repr

/-- The Hold Store. `slots` is the age order (R98): every non-FREE slot once, oldest first; the Hold Directory (R97) is
the lookup of a cell index in it, and fill is its length. -/
structure HoldStore where
  slots : List Slot
  /-- flush flag (R116) -/
  flush : Bool
  /-- device hold enable (R99) -/
  holdEnable : Bool
  /-- low mark, after its clamp -/
  lowMark : Nat
  /-- high mark as written, after its upper clamp; the mark in use is the larger of it and the low mark -/
  highMark : Nat
  /-- age limit AL, after its clamp -/
  ageLimit : Nat
  deriving DecidableEq, Repr

def HoldStore.reset : HoldStore :=
  { slots := [], flush := false, holdEnable := false, lowMark := 1024, highMark := 1792, ageLimit := 50 }

/-! ### DRAM Channel Controller -/

/-- The levels of retirement urgency (R110). -/
inductive Urgency where
  | none | may | need | must
  deriving DecidableEq, Repr

/-- An entry of the read queue (R125). -/
structure ReadEntry where
  cell : Nat
  extent : Extent
  /-- the number of the response entry it fills -/
  entry : Nat
  /-- boost flag -/
  boost : Bool
  /-- place in take order -/
  seq : Nat
  deriving DecidableEq, Repr

/-- What a queued write writes (R126). -/
inductive WriteData where
  | full (data : List Byte)
  | partialWord (word : Nat) (data : List Byte)
  deriving DecidableEq, Repr

/-- An entry of the write queue (R126). -/
structure WriteEntry where
  cell : Nat
  payload : WriteData
  /-- place in take order -/
  seq : Nat
  deriving DecidableEq, Repr

/-- A retirement in hand (R130, R131). -/
structure Retirement where
  slot : Nat
  cell : Nat
  /-- the slot's data as copied at the choice -/
  data : List Byte
  /-- the urgency at which it was chosen -/
  urgency : Urgency
  deriving DecidableEq, Repr

/-- The operations of the channel (R124). -/
inductive Operation where
  /-- a read; `dropped` is set when a link drop has discarded its response entry (R132, R137) -/
  | read (e : ReadEntry) (dropped : Bool)
  | write (e : WriteEntry)
  | retirement (r : Retirement)
  | refresh
  deriving DecidableEq, Repr

/-- The operation in flight, with its nominal duration in ns (R123, R124). -/
structure InFlight where
  op : Operation
  duration : Nat
  deriving DecidableEq, Repr

/-- The channel states (R135). -/
inductive ChannelState where
  | init | run | quiet | waking
  deriving DecidableEq, Repr

/-- The quiet timer (R136). -/
inductive QuietTimer where
  | stopped
  /-- running, loaded with this many µs -/
  | running (us : Nat)
  | expired
  deriving DecidableEq, Repr

/-- The DRAM Channel Controller. -/
structure Channel where
  state : ChannelState
  /-- the read queue, in take order (R125) -/
  readQ : List ReadEntry
  /-- the write queue, in take order (R126) -/
  writeQ : List WriteEntry
  /-- the place in take order of the next request queued -/
  nextSeq : Nat
  /-- the retirement in hand (R130) -/
  inHand : Option Retirement
  /-- the operation in flight (R124) -/
  inFlight : Option InFlight
  /-- the bank records: the open row, or none (R123) -/
  banks : Vector (Option Nat) 16
  /-- refresh backlog, 0..8 (R133) -/
  backlog : Nat
  /-- the interval in 0.1 µs the refresh timer was last loaded with; none while it is stopped (R133) -/
  refreshTimer : Option Nat
  /-- refresh interval in force (R133, R138) -/
  refreshInterval : Nat
  /-- quiet delay in force, in µs (R136) -/
  quietDelay : Nat
  quietTimer : QuietTimer
  deriving DecidableEq, Repr

/-- All 16 bank records at none (R123). -/
def Channel.closedBanks : Vector (Option Nat) 16 := Vector.replicate 16 none

def Channel.reset : Channel :=
  { state := .init, readQ := [], writeQ := [], nextSeq := 0, inHand := none, inFlight := none, banks := closedBanks,
    backlog := 0, refreshTimer := none, refreshInterval := 39, quietDelay := 0, quietTimer := .stopped }

/-! ### The DRAM array -/

/-- Memory as a list of byte addresses (256 times the cell index, plus the cell byte) and bytes. A byte that nothing
has written since power was applied is not listed. -/
abbrev Memory := List Host.Cell

/-- The canonical form: addresses strictly rising. An unlisted address holds no known byte, so no entry equals what an
unlisted address reads as. -/
abbrev Memory.wf (m : Memory) : Prop := m.Pairwise (fun a b => a.1 < b.1)

/-- The DRAM array (R123). -/
structure Dram where
  mem : Memory
  /-- the model's own: how many times power has been applied, the argument of `Config.powerUpByte` -/
  powerUps : Nat
  /-- the model's own: how many power-on resets there have been, the argument of `Config.cutWriteLands` -/
  resets : Nat
  deriving DecidableEq, Repr

/-! ### Alert Output Block -/

/-- The modes of an alert line (R175, R176). -/
inductive AlertMode where
  | level | inverted | pulseHigh | pulseLow
  deriving DecidableEq, Repr

/-- The pulse widths of an alert line (R177). -/
inductive PulseWidth where
  | us1 | us10 | us100 | ms1
  deriving DecidableEq, Repr

/-- A running pulse: the level it drives, `true` for high, and the width it started with, which fixes its end (R176). -/
structure Pulse where
  level : Bool
  width : PulseWidth
  deriving DecidableEq, Repr

/-- The kinds of event, in the event bit numbering of 11_layouts_and_signals.md (R174, R178). -/
inductive Event where
  | incastOn | stallOn | ringRefused | storeMust | poolEmpty | linkFault | range
  deriving DecidableEq, Repr

/-- One alert line (10_alert_lines.md). Bit n of the mask and of the flags is the event numbered n. -/
structure AlertLine where
  mode : AlertMode
  width : PulseWidth
  mask : BitVec 7
  flags : BitVec 7
  pulse : Option Pulse
  deriving DecidableEq, Repr

/-- A line after a power-on reset, and after a soft reset's completion (R177). -/
def AlertLine.reset : AlertLine := { mode := .level, width := .us1, mask := 0, flags := 0, pulse := none }

/-! ### Device counters, pins and the whole -/

/-- The 13 device counters (R173), each 0..2^32 − 1. -/
structure DeviceCounters where
  hits : Nat
  misses : Nat
  elided : Nat
  retired : Nat
  overwrites : Nat
  refreshOverruns : Nat
  linkDrops : Nat
  discarded : Nat
  integrityFailures : Nat
  rqOverflows : Nat
  tagReuses : Nat
  rangeErrors : Nat
  evictions : Nat
  deriving DecidableEq, Repr

def DeviceCounters.zero : DeviceCounters :=
  { hits := 0, misses := 0, elided := 0, retired := 0, overwrites := 0, refreshOverruns := 0, linkDrops := 0,
    discarded := 0, integrityFailures := 0, rqOverflows := 0, tagReuses := 0, rangeErrors := 0, evictions := 0 }

/-- The fitted capacity that CAPSEL selects (R179). -/
inductive Capacity where
  | gib4 | gib8
  deriving DecidableEq, Repr

/-- The state of the part, and the queue of commands that wait for it. -/
structure State where
  /-- RSTN is held low: a power-on reset lasts (R179) -/
  rstnLow : Bool
  /-- the capacity sampled from CAPSEL (R179) -/
  capacity : Capacity
  /-- Cell Link Port -/
  clp : LinkPort
  /-- Request Front End -/
  rfe : FrontEnd
  /-- the rings: Ring Table, Sender Lists, estimator state, mark credits, staged settings and ring counters -/
  rings : Vector Ring 64
  /-- the number of records in the free pool (R31) -/
  poolFree : Nat
  /-- Sojourn Estimator -/
  sje : Estimator
  /-- the Fan-in Table's active W (R44) -/
  fanInWindow : Nat
  /-- Service Window Unit -/
  swu : Windows
  /-- Hold Store -/
  hst : HoldStore
  /-- DRAM Channel Controller -/
  dcc : Channel
  /-- the DRAM array -/
  dram : Dram
  /-- Alert Output Block -/
  alerts : Vector AlertLine 4
  /-- device counters -/
  counters : DeviceCounters
  /-- the commands that wait, first in, first out -/
  pending : List Instr
  deriving DecidableEq, Repr

/-- The part in a power-on reset, RSTN held low, before its first CAPSEL sample: every block at its power-on values
(R39, R50, R75, R77, R120, R138, R155, R162, R173, R177, R179). -/
def State.reset : State :=
  { rstnLow := true, capacity := .gib4, clp := .reset, rfe := .reset, rings := Vector.replicate 64 Ring.reset,
    poolFree := 4096, sje := .reset, fanInWindow := 8, swu := .reset, hst := .reset, dcc := .reset,
    dram := { mem := [], powerUps := 0, resets := 0 }, alerts := Vector.replicate 4 AlertLine.reset,
    counters := .zero, pending := [] }

end Sys2Proof.Machine
end

