-- ==== Sys2Proof/Machine/Bytes.lean ====
section
/-! DEFINITION. Byte strings: little-endian and network-order fields, words of a cell, the cyclic check of the link,
and saturating counters. -/

namespace Sys2Proof.Machine

/-- The byte at offset `k`; a byte string is read only inside its length. -/
def byteAt (bs : List Byte) (k : Nat) : Byte := bs.getD k 0

/-- The little-endian number a byte string spells: its first byte is the least significant (R1). -/
def leNat : List Byte → Nat
  | [] => 0
  | b :: bs => b.toNat + 256 * leNat bs

/-- The little-endian field of `n` bytes at byte `k`. -/
def leField (bs : List Byte) (k n : Nat) : Nat := leNat ((bs.drop k).take n)

/-- A number as `n` little-endian bytes. -/
def leBytes : Nat → Nat → List Byte
  | 0, _ => []
  | n + 1, v => BitVec.ofNat 8 v :: leBytes n (v / 256)

/-- The 16-bit group at bytes `k` and `k + 1` in network order: the first byte is the high byte (R1, R10). -/
def beGroup (bs : List Byte) (k : Nat) : BitVec 16 := byteAt bs k ++ byteAt bs (k + 1)

/-- Word `w` of a cell: cell bytes 8w .. 8w+7 (R1). -/
def wordOf (cell : List Byte) (w : Nat) : List Byte := (cell.drop (8 * w)).take 8

/-- A cell with word `w` replaced (R105). -/
def mergeWord (cell : List Byte) (w : Nat) (word : List Byte) : List Byte :=
  cell.take (8 * w) ++ word ++ cell.drop (8 * w + 8)

/-- `n` zero bytes. -/
def zeros (n : Nat) : List Byte := List.replicate n 0

/-- The number of data bytes of a read of this extent (R146, R149). -/
def Extent.size : Extent → Nat
  | .cell => 256
  | .word _ => 8

/-! ### The integrity check -/

/-- One bit of the cyclic check in reflected form: 82F63B78h is the generator 1EDC6F41h with its bits reversed (R178). -/
def crcBit (c : Nat) : Nat := if c % 2 = 1 then (c / 2) ^^^ 0x82F63B78 else c / 2

/-- `k` bits of the cyclic check. -/
def crcBits : Nat → Nat → Nat
  | 0, c => c
  | k + 1, c => crcBits k (crcBit c)

/-- The cyclic check run over bytes, each entering bit 0 first. -/
def crcRun (c : Nat) (bs : List Byte) : Nat := bs.foldl (fun c b => crcBits 8 (c ^^^ b.toNat)) c

/-- The check word over a frame's bytes: it starts from FFFFFFFFh and is complemented (11_layouts_and_signals.md). -/
def crcWord (bs : List Byte) : Nat := crcRun 0xFFFFFFFF bs ^^^ 0xFFFFFFFF

/-- A frame with its check word, which is sent little-endian. -/
def withCheckWord (bs : List Byte) : List Byte := bs ++ leBytes 4 (crcWord bs)

/-! ### Counters -/

/-- A 32-bit counter after a rise of `k`: it saturates at its maximum (R173). -/
def bump (n k : Nat) : Nat := min (n + k) 0xFFFFFFFF

end Sys2Proof.Machine
end

