-- ==== Sys2Proof/Machine/Flags.lean ====
section
/-! DEFINITION. The event flags and levels of one alert line (10_alert_lines.md). -/

namespace Sys2Proof.Machine

/-- The number of an event in the event bit numbering (R178). -/
def Event.number : Event → Nat
  | .incastOn => 0
  | .stallOn => 1
  | .ringRefused => 2
  | .storeMust => 3
  | .poolEmpty => 4
  | .linkFault => 5
  | .range => 6

/-- The bit of an event in masks and flags. -/
def Event.bit (e : Event) : BitVec 7 := 1#7 <<< e.number

/-- The line's condition: at least one enabled flag is set (R175). -/
def AlertLine.condition (l : AlertLine) : Bool := l.flags &&& l.mask != 0

/-- The level the line takes while no pulse runs, `true` for high: the condition's level in a level mode (R175), the
resting level in a pulse mode (R176). -/
def AlertLine.restLevel (l : AlertLine) : Bool :=
  match l.mode with
  | .level => l.condition
  | .inverted => !l.condition
  | .pulseHigh => false
  | .pulseLow => true

/-- The level the line drives, `true` for high: a running pulse completes at the level it started with (R176, R177). -/
def AlertLine.driven (l : AlertLine) : Bool :=
  match l.pulse with
  | some p => p.level
  | none => l.restLevel

/-- The pulse level of a pulse mode; a level mode has none (R176). -/
def AlertMode.pulseLevel? : AlertMode → Option Bool
  | .level => none
  | .inverted => none
  | .pulseHigh => some true
  | .pulseLow => some false

/-- The pulse that an enabled flag starts as it goes from clear to set: none while a pulse runs, and none in a level
mode (R176). -/
def AlertLine.startPulse (l : AlertLine) : Option Pulse :=
  match l.pulse with
  | some p => some p
  | none => l.mode.pulseLevel?.map (fun level => { level := level, width := l.width })

/-- The line after an event sets its flag (R174, R176). A flag already set makes no transition, and only an enabled
flag can start a pulse. -/
def AlertLine.raise (e : Event) (l : AlertLine) : AlertLine :=
  if l.flags &&& e.bit = 0 ∧ l.mask &&& e.bit ≠ 0 then
    { l with flags := l.flags ||| e.bit, pulse := l.startPulse }
  else { l with flags := l.flags ||| e.bit }

/-- The line after the named flags are cleared; a running pulse goes on (R164, R176). -/
def AlertLine.clear (bits : BitVec 7) (l : AlertLine) : AlertLine := { l with flags := l.flags &&& ~~~bits }

/-- The line after its mode, width and mask are written, all three at once; a running pulse goes on as it started, and
no pulse starts (R177). -/
def AlertLine.configure (mode : AlertMode) (width : PulseWidth) (mask : BitVec 7) (l : AlertLine) : AlertLine :=
  { l with mode := mode, width := width, mask := mask }

/-- The line after its running pulse ends: it takes the level its mode gives (R176, R177). -/
def AlertLine.endPulse (l : AlertLine) : AlertLine := { l with pulse := none }

end Sys2Proof.Machine
end

