-- ==== Sys2Proof/Machine/Memory.lean ====
section
/-! DEFINITION. The DRAM array (R123): reading and writing bytes. -/

namespace Sys2Proof.Machine

/-- What the array holds at a byte address, where something has written it since power was applied. -/
def Memory.read? (m : Memory) (a : Nat) : Option Byte := (m.find? (fun e => e.1 == a)).map (·.2)

/-- The entries of a run of bytes from address `a` on. -/
def Memory.run : Nat → List Byte → Memory
  | _, [] => []
  | a, b :: bs => (a, b) :: Memory.run (a + 1) bs

/-- The array after the bytes `bs` are written from address `a` on. -/
def Memory.write (m : Memory) (a : Nat) (bs : List Byte) : Memory :=
  m.filter (fun e => e.1 < a) ++ (Memory.run a bs ++ m.filter (fun e => a + bs.length ≤ e.1))

/-- The byte a read of the array returns: what was last written there since power was applied, and otherwise the free
value that stands for whatever the array holds (R123, log entry 3). -/
def Dram.byte (d : Dram) (a : Nat) : Byte := (d.mem.read? a).getD (Config.powerUpByte d.powerUps a)

/-- `n` bytes of the array from address `a` on. -/
def Dram.bytes (d : Dram) (a n : Nat) : List Byte := (List.range n).map (fun i => d.byte (a + i))

/-- The byte address of a cell's byte 0. -/
def cellAddr (cell : Nat) : Nat := 256 * cell

/-- The byte address at which an access of this extent to a cell begins (R1). -/
def Extent.addr (cell : Nat) : Extent → Nat
  | .cell => cellAddr cell
  | .word w => cellAddr cell + 8 * w

/-- The bytes a read operation of this extent returns at its completion (R123, R132). -/
def Dram.readExtent (d : Dram) (cell : Nat) (x : Extent) : List Byte := d.bytes (x.addr cell) x.size

/-- The byte address a queued write begins at. -/
def WriteData.addr (cell : Nat) : WriteData → Nat
  | .full _ => cellAddr cell
  | .partialWord w _ => cellAddr cell + 8 * w

/-- The bytes a queued write writes. -/
def WriteData.bytes : WriteData → List Byte
  | .full data => data
  | .partialWord _ data => data

/-- The array at the completion of a write (R123): a full write replaces the cell, a partial write the one word. -/
def Dram.store (d : Dram) (cell : Nat) (w : WriteData) : Dram :=
  { d with mem := d.mem.write (w.addr cell) w.bytes }

end Sys2Proof.Machine
end

