-- ==== Sys2Proof/Machine/Operands.lean ====
section
/-! DEFINITION. The operands the part reads from bytes: the cell prefix, the first cell of a packet, request frames and
the frames the part sends, and the fields of control words (01_cells_and_frames.md, 11_layouts_and_signals.md). -/

namespace Sys2Proof.Machine

/-! ### The cell prefix -/

/-- The kind field of a cell prefix (R3). -/
inductive CellKind where
  | first | middle | last | only
  deriving DecidableEq, Repr

/-- The encoding of the kind field (R178). -/
def CellKind.ofBits : Nat → CellKind
  | 0 => .first
  | 1 => .middle
  | 2 => .last
  | _ => .only

/-- Whether a cell of this kind begins a packet (R3). -/
def CellKind.begins : CellKind → Bool
  | .first => true
  | .middle => false
  | .last => false
  | .only => true

/-- The kind of a cell: bits 1..0 of cell byte 0. -/
def prefixKind (data : List Byte) : CellKind := .ofBits ((byteAt data 0).toNat % 4)

/-- The copies of a cell: bits 3..0 of cell byte 1; 0 means keep (R4). -/
def prefixCopies (data : List Byte) : Nat := (byteAt data 1).toNat % 16

/-- The exempt value of a cell: bit 7 of cell byte 1 (R5). -/
def prefixExempt (data : List Byte) : Bool := (byteAt data 1).getLsbD 7

/-! ### The first cell of a packet -/

/-- The packet summary (R6). -/
structure Summary where
  kind : FrameKind
  /-- tag count, 0..2 -/
  tags : Nat
  /-- header offset, absent for other -/
  offset : Option Nat
  signature : Signature
  ecn : Ecn
  exempt : Bool
  /-- copies, 0..15 -/
  copies : Nat
  deriving DecidableEq, Repr

/-- The tag walk (R7): the tag count and the EtherType. The type fields at frame bytes 12, 16 and 20 are cell bytes 20,
24 and 28. -/
def tagWalk (data : List Byte) : Nat × BitVec 16 :=
  let outer := beGroup data 20
  if outer = 0x8100#16 ∨ outer = 0x88A8#16 then
    let inner := beGroup data 24
    if inner = 0x8100#16 then (2, beGroup data 28) else (1, inner)
  else (0, outer)

/-- The cell byte at which the IP header begins, for a tag count (R7). -/
def headerOffset (tags : Nat) : Nat := 22 + 4 * tags

/-- The frame kind (R8, R9), from the EtherType and the first byte of the IP header. -/
def frameKind (etherType : BitVec 16) (byte0 : Byte) : FrameKind :=
  if etherType = 0x0800#16 ∧ byte0.toNat / 16 = 4 ∧ 5 ≤ byte0.toNat % 16 then .ipv4
  else if etherType = 0x86DD#16 ∧ byte0.toNat / 16 = 6 then .ipv6
  else .other

/-- The XOR of `n` two-byte groups from cell byte `k` on (R10). -/
def xorGroups (data : List Byte) (k : Nat) : Nat → BitVec 16
  | 0 => 0
  | n + 1 => beGroup data k ^^^ xorGroups data (k + 2) n

/-- The signature (R10): IP header bytes 12..15 for IPv4, 8..23 for IPv6, and the source MAC, frame bytes 6..11 (cell
bytes 14..19), for other. -/
def frameSignature (data : List Byte) (offset : Nat) : FrameKind → Signature
  | .ipv4 => xorGroups data (offset + 12) 2
  | .ipv6 => xorGroups data (offset + 8) 8
  | .other => xorGroups data 14 3

/-- The codepoint of a two-bit ECN field, its high bit first (R11). -/
def Ecn.ofBits : Nat → Ecn
  | 0 => .notEct
  | 1 => .ect1
  | 2 => .ect0
  | _ => .ce

/-- The codepoint of a frame (R11): the low two bits of IPv4 header byte 1, bits 5..4 of IPv6 header byte 1, and 00 for
other. -/
def frameEcn (data : List Byte) (offset : Nat) : FrameKind → Ecn
  | .ipv4 => .ofBits ((byteAt data (offset + 1)).toNat % 4)
  | .ipv6 => .ofBits ((byteAt data (offset + 1)).toNat / 16 % 4)
  | .other => .notEct

/-- The packet summary of a cell that begins a packet (R6). -/
def parse (data : List Byte) : Summary :=
  let walk := tagWalk data
  let offset := headerOffset walk.1
  let kind := frameKind walk.2 (byteAt data offset)
  { kind := kind, tags := walk.1, offset := if kind = .other then none else some offset,
    signature := frameSignature data offset kind, ecn := frameEcn data offset kind,
    exempt := prefixExempt data, copies := prefixCopies data }

/-- The summary that goes with a write at a ring position: a MIDDLE or LAST cell has none (R3, R6). -/
def summaryOf (data : List Byte) : Option Summary := if (prefixKind data).begins then some (parse data) else none

/-- The kinds of packet for marking (R12). -/
inductive MarkKind where
  | exempt | markable | alreadyCe | notMarkable
  deriving DecidableEq, Repr

/-- The kind for marking of a packet (R12). -/
def markKind (exempt : Bool) (kind : FrameKind) (ecn : Ecn) : MarkKind :=
  if exempt then .exempt
  else
    match kind, ecn with
    | .other, _ => .notMarkable
    | _, .notEct => .notMarkable
    | _, .ect0 => .markable
    | _, .ect1 => .markable
    | _, .ce => .alreadyCe

/-! ### Request frames -/

/-- The request kind of a header, bits 27..26 (R178). -/
def requestKind (header : Nat) : Nat := header / 2 ^ 26 % 4

/-- The length of a request frame of this kind (R178). -/
def requestLength : Nat → Nat
  | 0 => 264
  | 1 => 17
  | 2 => 9
  | _ => 10

/-- The request a frame's fields spell: header bits 31..28 and bits 7..5 of a word byte are passed over (R178). -/
def frameRequest (f : List Byte) : Request :=
  let header := leField f 0 4
  let cell := header % 2 ^ 26
  match requestKind header with
  | 0 => .cellWrite cell ((f.drop 4).take 256)
  | 1 => .wordWrite cell ((byteAt f 4).toNat % 32) ((f.drop 5).take 8)
  | 2 => .cellRead cell (byteAt f 4)
  | _ => .wordRead cell ((byteAt f 4).toNat % 32) (byteAt f 5)

/-- Whether a frame passes its integrity check (R142, R178): it has the length of its kind, and its last four bytes are
the check word of all bytes before them. A frame of another length has no check word in its place (log entry 9). -/
def framePasses (f : List Byte) : Bool :=
  f.length == requestLength (requestKind (leField f 0 4)) &&
    leField f (f.length - 4) 4 == crcWord (f.take (f.length - 4))

/-- The request of a frame that passes its check. -/
def decodeFrame (f : List Byte) : Option Request := if framePasses f then some (frameRequest f) else none

/-- The header of a request frame: cell index, request kind, and the four bits that are passed over (R178). -/
def requestHeader (cell kind top : Nat) : List Byte := leBytes 4 (cell + kind * 2 ^ 26 + top * 2 ^ 28)

/-- The frame in which the TM sends a request (R178), with the header bits 31..28 at `top` and bits 7..5 of a word byte
at `pad`, which the part passes over. -/
def requestFrame (top pad : Nat) : Request → List Byte
  | .cellWrite cell data => withCheckWord (requestHeader cell 0 top ++ data)
  | .wordWrite cell w data => withCheckWord (requestHeader cell 1 top ++ BitVec.ofNat 8 (w + 32 * pad) :: data)
  | .cellRead cell tag => withCheckWord (requestHeader cell 2 top ++ [tag])
  | .wordRead cell w tag => withCheckWord (requestHeader cell 3 top ++ [BitVec.ofNat 8 (w + 32 * pad), tag])

/-! ### The frames the part sends -/

/-- The encoding of a response status (R178). -/
def Status.code : Status → Nat
  | .ok => 0
  | .range => 1
  | .tagReused => 2

/-- The encoding of a response extent (R178). -/
def Extent.code : Extent → Nat
  | .cell => 0
  | .word _ => 1

/-- The READ_DATA frame of a response (R151, R178). -/
def readDataFrame (r : Response) : List Byte :=
  withCheckWord ([BitVec.ofNat 8 (4 * r.status.code + 16 * r.extent.code), r.tag, 0, 0] ++ r.data)

/-- The CREDIT frame of a count (R143, R178). -/
def creditFrame (count : Nat) : List Byte := withCheckWord [1, BitVec.ofNat 8 count, 0, 0]

/-! ### Control words -/

/-- The direction field: UP when 0, DOWN for any other value (R161). -/
def Direction.ofBits (n : Nat) : Direction := if n = 0 then .up else .down

/-- The mode field of an alert-line word (R178). -/
def AlertMode.ofBits : Nat → AlertMode
  | 0 => .level
  | 1 => .inverted
  | 2 => .pulseHigh
  | _ => .pulseLow

/-- The width field of an alert-line word (R178). -/
def PulseWidth.ofBits : Nat → PulseWidth
  | 0 => .us1
  | 1 => .us10
  | 2 => .us100
  | _ => .ms1

/-- A ring's staged settings after ring word 2 is written: TL; TH (R161, R178). -/
def StagedSettings.setWord2 (s : StagedSettings) (w : List Byte) : StagedSettings :=
  { s with tl := leField w 0 2, th := leField w 2 2 }

/-- Ring word 3: PS; FT; ML; DW. -/
def StagedSettings.setWord3 (s : StagedSettings) (w : List Byte) : StagedSettings :=
  { s with ps := leField w 0 2, ft := leField w 2 1, ml := leField w 3 1, dw := leField w 4 1 }

/-- Ring word 4: QF; HH. -/
def StagedSettings.setWord4 (s : StagedSettings) (w : List Byte) : StagedSettings :=
  { s with qf := leField w 0 2, hh := leField w 2 2 }

/-- Ring word 5: policy; hold enable; quota; alert group. -/
def StagedSettings.setWord5 (s : StagedSettings) (w : List Byte) : StagedSettings :=
  { s with policy := leField w 0 1, holdEnable := leField w 1 1, quota := leField w 2 2, alertGroup := leField w 4 1 }

/-- A staged geometry after ring word 0 is written: base B. -/
def Geometry.setWord0 (g : Geometry) (w : List Byte) : Geometry := { g with base := leField w 0 4 }

/-- Ring word 1: lead LC; length N; direction. -/
def Geometry.setWord1 (g : Geometry) (w : List Byte) : Geometry :=
  { g with lead := leField w 0 2, length := leField w 2 4, direction := .ofBits (leField w 6 1) }

end Sys2Proof.Machine
end

