-- ==== Sys2Proof/Machine/Ops.lean ====
section
/-! DEFINITION. The named operations over the whole state: rings, events, classification of a cell index, response
entries, and the two DRAM queues. -/

namespace Sys2Proof.Machine

/-! ### Rings and events -/

/-- The state of ring `k`. -/
def State.ring (s : State) (k : Fin 64) : Ring := s.rings[k]

/-- Ring `k` replaced. -/
def State.setRing (s : State) (k : Fin 64) (r : Ring) : State := { s with rings := s.rings.set k r }

/-- The number of packet records in all ring lists (R31). -/
def recordCount (rings : Vector Ring 64) : Nat := (rings.toList.map (fun r => r.records.length)).sum

/-- A device event: its flag is set on all four lines (R174). -/
def State.raiseAll (e : Event) (s : State) : State := { s with alerts := s.alerts.map (AlertLine.raise e) }

/-- A ring event: its flag is set on the line of an alert group (R174). -/
def State.raiseOn (line : Fin 4) (e : Event) (s : State) : State :=
  { s with alerts := s.alerts.set line (s.alerts[line].raise e) }

/-! ### Cell indices -/

/-- CAP, in cells (R179). -/
def Capacity.cells : Capacity → Nat
  | .gib4 => 16777216
  | .gib8 => 33554432

/-- The classes of a cell index that the Request Front End tells apart by itself (R145); a window's cell carries its
number within the window (R157). -/
inductive CellClass where
  | outOfRange
  | report (n : Nat)
  | control (n : Nat)
  | buffer
  deriving DecidableEq, Repr

/-- The class of a cell index (R145, R157). -/
def State.cellClass (s : State) (cell : Nat) : CellClass :=
  let cap := s.capacity.cells
  if cap ≤ cell then .outOfRange
  else if cap - 32 ≤ cell then .control (cell - (cap - 32))
  else if cap - 128 ≤ cell then .report (cell - (cap - 128))
  else .buffer

/-- The first cell after the lead cells. -/
def Geometry.firstPosition (g : Geometry) : Nat := g.base + g.lead

/-- The first cell after the region (R15). -/
def Geometry.stop (g : Geometry) : Nat := g.base + g.lead + g.length

/-- The position of a cell index among the ring's positions (R15). -/
def Geometry.position? (g : Geometry) (cell : Nat) : Option Nat :=
  if g.firstPosition ≤ cell ∧ cell < g.stop then
    match g.direction with
    | .up => some (cell - g.firstPosition)
    | .down => some (g.stop - 1 - cell)
  else none

/-- Whether a cell index lies in the ring's region (R15). -/
def Geometry.covers (g : Geometry) (cell : Nat) : Bool := g.base ≤ cell && cell < g.stop

/-- The Ring Tracker's classes (R16). -/
inductive RingClass where
  | position (k : Fin 64) (p : Nat)
  | lead (k : Fin 64)
  | other
  deriving DecidableEq, Repr

/-- Whether the ring is active (R14, R67). -/
def Ring.isActive (r : Ring) : Bool := r.state != .off

/-- The ring of an active region that a cell index lies in (R16). -/
def State.ringOf? (s : State) (cell : Nat) : Option (Fin 64) :=
  (List.finRange 64).find? (fun k => (s.ring k).isActive && (s.ring k).active.covers cell)

/-- The Ring Tracker's classification of a buffer cell (R16). -/
def State.ringClass (s : State) (cell : Nat) : RingClass :=
  match s.ringOf? cell with
  | none => .other
  | some k =>
    match (s.ring k).active.position? cell with
    | some p => .position k p
    | none => .lead k

/-! ### Response entries -/

/-- A FREE response entry, the lowest-numbered one (R149, log entry 7). -/
def FrontEnd.freeEntry? (f : FrontEnd) : Option Nat :=
  (List.range 64).find? (fun n => f.responses.all (fun r => r.id != n))

/-- A response entry reserved at a take and READY or WAITING at once (R149, R150). Its tag joins the outstanding set
unless its status is TAG_REUSED (R146). -/
def State.addResponse (r : Response) (s : State) : State :=
  { s with
    rfe.responses := s.rfe.responses ++ [r]
    rfe.ready := if r.state = .ready then s.rfe.ready ++ [r.id] else s.rfe.ready
    rfe.tags := if r.status = .tagReused then s.rfe.tags else s.rfe.tags ++ [r.tag] }

/-- The entry with this number changed, where it is not FREE. -/
def State.updateResponse (n : Nat) (f : Response → Response) (s : State) : State :=
  { s with rfe.responses := s.rfe.responses.map (fun r => if r.id = n then f r else r) }

/-- Every claim on a store slot voided (R109). -/
def State.voidClaims (slot : Nat) (s : State) : State :=
  { s with rfe.responses := s.rfe.responses.map (fun r => if r.claim = some slot then { r with claim := none } else r) }

/-! ### The DRAM queues -/

/-- A write joins the write queue, where it has a free entry (R126, R127). -/
def State.queueWrite (cell : Nat) (w : WriteData) (s : State) : Option State :=
  if s.dcc.writeQ.length < 32 then
    some { s with
      dcc.writeQ := s.dcc.writeQ ++ [{ cell := cell, payload := w, seq := s.dcc.nextSeq }]
      dcc.nextSeq := s.dcc.nextSeq + 1 }
  else none

/-- A read joins the read queue, where it has a free entry (R125, R127). -/
def State.queueRead (cell : Nat) (x : Extent) (entry : Nat) (boost : Bool) (s : State) : Option State :=
  if s.dcc.readQ.length < 32 then
    some { s with
      dcc.readQ := s.dcc.readQ ++ [{ cell := cell, extent := x, entry := entry, boost := boost, seq := s.dcc.nextSeq }]
      dcc.nextSeq := s.dcc.nextSeq + 1 }
  else none

/-! ### Requests at the head of the queue -/

/-- The head leaves the Request Queue at its take, and the take is owed one credit (R143, R144). -/
def State.popHead (rest : List Request) (s : State) : State :=
  { s with rfe.rq := rest, clp.owed := min 64 (s.clp.owed + 1) }

/-- An out-of-range request (R147). -/
def State.rangeError (s : State) : State :=
  { s with counters.rangeErrors := bump s.counters.rangeErrors 1 }.raiseAll .range

end Sys2Proof.Machine
end

