-- ==== Sys2Proof/Machine/FanIn.lean ====
section
/-! DEFINITION. Fan-in Tracking (03_fan_in_tracking.md): the Sender Lists and the fan-in F. -/

namespace Sys2Proof.Machine

/-- The age of a Sender List entry in epochs, mod 65536 (R45). -/
def Sender.age (now : Epoch) (e : Sender) : Nat := (now - e.lastSeen).toNat

/-- The fan-in F (R45): the listed senders whose age is at most the active W. -/
def fanIn (senders : List Sender) (now : Epoch) (w : Nat) : Nat := (senders.filter (fun e => e.age now ≤ w)).length

/-- A Sender List aged at an expiry (R46). -/
def ageSenders (senders : List Sender) (now : Epoch) (w : Nat) : List Sender :=
  senders.filter (fun e => e.age now ≤ w)

/-- A Sender List after a first cell with this signature (R42). -/
def noteSender (senders : List Sender) (sig : Signature) (now : Epoch) : List Sender :=
  match senders.find? (fun e => e.signature == sig) with
  | some e =>
    { signature := sig, lastSeen := now, packets := min 65535 (e.packets + 1) } ::
      senders.filter (fun e => e.signature != sig)
  | none =>
    { signature := sig, lastSeen := now, packets := 1 } ::
      (if senders.length < 16 then senders else senders.dropLast)

/-- Whether a first cell with this signature evicts the back entry (R43). -/
def evicts (senders : List Sender) (sig : Signature) : Bool :=
  senders.all (fun e => e.signature != sig) && decide (16 ≤ senders.length)

/-- The sender update at the take of an accepted first cell in ring `k` (R42, R43). -/
def State.updateSenders (k : Fin 64) (sig : Signature) (s : State) : State :=
  let r := s.ring k
  { s with
    counters.evictions := if evicts r.senders sig then bump s.counters.evictions 1 else s.counters.evictions }.setRing k
      { r with senders := noteSender r.senders sig s.sje.epoch }

/-- The clamp of the fan-in window W as it is taken (R44). -/
def clampWindow (w : Nat) : Nat := max 1 (min 255 w)

end Sys2Proof.Machine
end

