-- ==== Sys2Proof/Machine/Sojourn.lean ====
section
/-! DEFINITION. Sojourn Estimation (04_sojourn_estimation.md): settings, drain estimate, sojourn, share, ring states and
the expiry work of one ring. -/

namespace Sys2Proof.Machine

/-! ### Settings -/

/-- The clamp of the epoch length EL (R54). -/
def clampEpochLength (el : Nat) : Nat := max 2 (min 1000 el)

/-- The clamp of the stall limit SL (R59). -/
def clampStallLimit (sl : Nat) : Nat := max 1 (min 255 sl)

/-- The clamp of an alert group: a value above 3 becomes 3 (R57, R161). -/
def clampGroup (g : Nat) : Fin 4 := ⟨min 3 g, by omega⟩

/-- A ring's settings as they are taken, all together, with their clamps (R57). The TL clamp acts against the TH taken
at the same moment. -/
def StagedSettings.taken (s : StagedSettings) : Settings :=
  let th := max 1 s.th
  { tl := min s.tl (th - 1), th := th, ps := if s.ps = 0 then 256 else min 256 s.ps, ft := max 2 (min 17 s.ft),
    ml := min 3 s.ml, dw := min 7 s.dw, qf := s.qf, hh := s.hh,
    policy := if s.policy = 0 then .spend else .carry, holdEnable := s.holdEnable != 0,
    quota := min 4096 s.quota, alertGroup := clampGroup s.alertGroup }

/-! ### Drain, sojourn and share -/

/-- The drain update (R61): D + floor((16·c − D) / 2^DW), the division rounding toward minus infinity. -/
def drainUpdate (d c dw : Nat) : Nat := ((d : Int) + (16 * (c : Int) - (d : Int)) / (2 ^ dw : Nat)).toNat

/-- The sojourn T of an occupancy Q and a drain estimate D (R63). -/
def sojourn (q d : Nat) : Nat :=
  if q = 0 then 0 else if d = 0 then 65535 else min 65535 (256 * q / d)

/-- An effective threshold: the threshold shifted right by the ramp level (R65). -/
def effective (threshold ramp : Nat) : Nat := threshold / 2 ^ ramp

/-- The share P of a sojourn T, between the effective thresholds TL' and TH' (R66). -/
def share (t ps tl' th' : Nat) : Nat :=
  if t < tl' then 0 else if th' ≤ t then 256 else ps * (t - tl') / (th' - tl')

/-- The share of a ring for an occupancy Q, from its D, L and active settings as they stand (R64, R66). -/
def Ring.shareAt (r : Ring) (q : Nat) : Nat :=
  share (sojourn q r.drain) r.settings.ps (effective r.settings.tl r.ramp) (effective r.settings.th r.ramp)

/-! ### The expiry work of one ring -/

/-- The stall count after an expiry (R71). -/
def Ring.nextStall (r : Ring) : Nat := if 0 < r.occ ∧ r.reads = 0 then min 255 (r.stall + 1) else 0

/-- Whether the ring is STALLED for this expiry (R71). -/
def Ring.stalls (r : Ring) (sl : Nat) : Bool := decide (sl ≤ r.nextStall)

/-- The drain estimate after an expiry: held for a STALLED ring (R61, R71). -/
def Ring.nextDrain (r : Ring) (set : Settings) (sl : Nat) : Nat :=
  if r.stalls sl then r.drain else drainUpdate r.drain r.reads set.dw

/-- The state after an expiry (R71, R72), with the fan-in `f` and the sojourn `t` of this expiry. The CONGESTED test
takes the ramp level as it stood before. -/
def Ring.nextState (r : Ring) (set : Settings) (sl f t : Nat) : RingState :=
  if r.stalls sl then .stalled
  else if set.ft ≤ f ∧ set.qf ≤ r.occ then .incast
  else if effective set.tl r.ramp ≤ t then .congested
  else .clear

/-- The ramp level after an expiry, by the state after it (R72). -/
def nextRamp (ramp ml : Nat) : RingState → Nat
  | .incast => min (ramp + 1) ml
  | .stalled => min ramp ml
  | .off => min (ramp - 1) ml
  | .clear => min (ramp - 1) ml
  | .congested => min (ramp - 1) ml

/-- The expiry work of an active ring (R70 to R74), with the epoch number the expiry begins and the W and SL just
taken. -/
def Ring.expiryWork (now : Epoch) (w sl : Nat) (r : Ring) : Ring :=
  let set := r.stagedSettings.taken
  let drain := r.nextDrain set sl
  let t := sojourn r.occ drain
  let state := r.nextState set sl (fanIn r.senders now w) t
  { r with settings := set, stall := r.nextStall, drain := drain, state := state,
           ramp := nextRamp r.ramp set.ml state, lastT := t, reads := 0 }

/-- One ring at an epoch expiry: the expiry work where it is active (R69), and the ageing of its Sender List (R46). -/
def Ring.expire (now : Epoch) (w sl : Nat) (r : Ring) : Ring :=
  let r' := if r.isActive then r.expiryWork now w sl else r
  { r' with senders := ageSenders r.senders now w }

/-- The event of a ring's change of state at an expiry (R73). -/
def expiryEvent (before after : RingState) : Option Event :=
  if before = after then none
  else
    match after with
    | .incast => some .incastOn
    | .stalled => some .stallOn
    | .off => none
    | .clear => none
    | .congested => none

/-- The events of all rings at one expiry, each to the alert group just taken (R73, R174). -/
def State.raiseExpiryEvents (before : Vector Ring 64) (s : State) : State :=
  (List.finRange 64).foldl
    (fun (t : State) (k : Fin 64) =>
      match expiryEvent before[k].state (s.ring k).state with
      | some e => t.raiseOn (s.ring k).settings.alertGroup e
      | none => t) s

end Sys2Proof.Machine
end

