-- ==== Sys2Proof/Machine/Marking.lean ====
section
/-! DEFINITION. Dequeue Marking (05_dequeue_marking.md): the decision at a header read and the header rewrite. -/

namespace Sys2Proof.Machine

/-! ### The decision -/

/-- What a decision gives: the decision and the new mark credit. -/
structure Verdict where
  decision : Decision
  credit : Nat
  deriving DecidableEq, Repr

/-- The table of R79, for a packet kind, the policy, the mark credit A and the share P. -/
def decideMark (kind : MarkKind) (policy : Policy) (credit share : Nat) : Verdict :=
  let s := credit + share
  match kind with
  | .exempt => { decision := .pass, credit := credit }
  | .markable =>
    if s < 256 then { decision := .pass, credit := s } else { decision := .mark, credit := s - 256 }
  | .alreadyCe =>
    if s < 256 then { decision := .pass, credit := s } else { decision := .ceAlready, credit := s - 256 }
  | .notMarkable =>
    if s < 256 then { decision := .pass, credit := s }
    else
      match policy with
      | .spend => { decision := .unmarkable, credit := s - 256 }
      | .carry => { decision := .unmarkable, credit := 255 }

/-- The marking counters after a decision on a packet of this kind (R87). -/
def RingCounters.decided (c : RingCounters) (kind : MarkKind) : Decision → RingCounters
  | .mark => { c with marked := bump c.marked 1 }
  | .ceAlready => { c with ceAlready := bump c.ceAlready 1 }
  | .unmarkable => { c with unmarkable := bump c.unmarkable 1 }
  | .none => c
  | .pass => if kind = .exempt then { c with exempt := bump c.exempt 1 } else c

/-- The kind for marking of a packet record (R12, R79). -/
def PacketRecord.markKind (rec : PacketRecord) : MarkKind := Machine.markKind rec.exempt rec.kind rec.ecn

/-- The decision taken at the first header read of a packet (R79), with the ring's Q as it stood before the read's own
position update. -/
def Ring.verdict (r : Ring) (rec : PacketRecord) (q : Nat) : Verdict :=
  decideMark rec.markKind r.settings.policy r.credit (r.shareAt q)

/-- The Mark Unit's part in a header read (R78): with decision NONE it decides, and otherwise hands on the stored
decision and leaves A and the counters alone (R84). It gives the ring and the record's decision. -/
def Ring.markRead (r : Ring) (rec : PacketRecord) (q : Nat) : Ring × Decision :=
  if rec.decision = .none then
    let v := r.verdict rec q
    ({ r with credit := v.credit, counters := r.counters.decided rec.markKind v.decision }, v.decision)
  else (r, rec.decision)

/-- What a response entry keeps of a record for the rewrite: its frame kind and header offset, when the decision is MARK
(R89, R149). -/
def headerPlace (rec : PacketRecord) (d : Decision) : Option HeaderPlace :=
  if d = .mark then rec.offset.map (fun o => { kind := rec.kind, offset := o }) else none

/-! ### The rewrite -/

/-- 16-bit ones-complement addition with end-around carry (R90). -/
def onesAdd (a b : BitVec 16) : BitVec 16 :=
  let sum := a.toNat + b.toNat
  BitVec.ofNat 16 (sum % 65536 + sum / 65536)

/-- The updated IPv4 header checksum, from the old one and the word before and after the change (R90). -/
def updatedChecksum (hc m m' : BitVec 16) : BitVec 16 := ~~~(onesAdd (onesAdd (~~~hc) (~~~m)) m')

/-- The two bytes of a group in network order. -/
def highByte (g : BitVec 16) : Byte := g.extractLsb' 8 8

def lowByte (g : BitVec 16) : Byte := g.extractLsb' 0 8

/-- The rewrite of an IPv4 header that begins at cell byte `o` (R89, R90). -/
def rewriteIpv4 (o : Nat) (data : List Byte) : List Byte :=
  let tos := byteAt data (o + 1) ||| 3
  let hc := updatedChecksum (beGroup data (o + 10)) (beGroup data o) (byteAt data o ++ tos)
  ((data.set (o + 1) tos).set (o + 10) (highByte hc)).set (o + 11) (lowByte hc)

/-- The rewrite of an IPv6 header that begins at cell byte `o` (R92). -/
def rewriteIpv6 (o : Nat) (data : List Byte) : List Byte := data.set (o + 1) (byteAt data (o + 1) ||| 0x30)

/-- The rewrite of response data at the place the record gave (R88, R89). A MARK decision always comes with IPv4 or
IPv6. -/
def rewriteHeader (h : HeaderPlace) (data : List Byte) : List Byte :=
  match h.kind with
  | .ipv4 => rewriteIpv4 h.offset data
  | .ipv6 => rewriteIpv6 h.offset data
  | .other => data

/-- Response data with the rewrite its entry calls for (R88). -/
def rewritten (header : Option HeaderPlace) (data : List Byte) : List Byte :=
  match header with
  | some h => rewriteHeader h data
  | none => data

end Sys2Proof.Machine
end

