-- ==== Sys2Proof/Machine/RingTracker.lean ====
section
/-! DEFINITION. Ring Tracking (02_ring_tracking.md): tracking of writes and reads, packet records, enable and disable. -/

namespace Sys2Proof.Machine

/-! ### Positions -/

/-- The distance (p − d) mod N (R15). -/
def distance (p d n : Nat) : Nat := (p + n - d) % n

/-- The successor of a position (R15). -/
def successor (p n : Nat) : Nat := (p + 1) % n

/-- Whether a position lies in the occupied span (R18). -/
def Ring.inSpan (r : Ring) (p : Nat) : Bool := decide (distance p r.drainPos r.active.length < r.occ)

/-! ### Cell writes -/

/-- The cases of a cell write (R20). -/
inductive WriteCase where
  | adopt | inSequence | overrun | rewrite | resync
  deriving DecidableEq, Repr

/-- The case of a CELL_WRITE at position `p` (R20). -/
def Ring.writeCase (r : Ring) (p : Nat) : WriteCase :=
  if r.occ = 0 then .adopt
  else if p = r.fillPos then
    if r.occ < r.active.length then .inSequence else .overrun
  else if r.inSpan p then .rewrite
  else .resync

/-- The position effect and the counters of a CELL_WRITE, less its records (R20 to R24). -/
def Ring.moveWrite (r : Ring) (p : Nat) : WriteCase → Ring
  | .adopt =>
    { r with drainPos := p, fillPos := successor p r.active.length, occ := 1,
             counters.cellsIn := bump r.counters.cellsIn 1 }
  | .inSequence =>
    { r with fillPos := successor r.fillPos r.active.length, occ := r.occ + 1,
             counters.cellsIn := bump r.counters.cellsIn 1 }
  | .overrun =>
    { r with fillPos := successor r.fillPos r.active.length, drainPos := successor r.drainPos r.active.length,
             counters.cellsIn := bump r.counters.cellsIn 1, counters.overruns := bump r.counters.overruns 1 }
  | .rewrite => { r with counters.rewrites := bump r.counters.rewrites 1 }
  | .resync =>
    { r with fillPos := successor p r.active.length, occ := distance p r.drainPos r.active.length + 1,
             counters.cellsIn := bump r.counters.cellsIn 1, counters.resyncs := bump r.counters.resyncs 1 }

/-! ### Packet records -/

/-- The records of ring `k` that `keep` refuses are removed as lost and returned to the free pool (R24, R25). -/
def State.loseRecords (k : Fin 64) (keep : PacketRecord → Bool) (s : State) : State :=
  let r := s.ring k
  let kept := r.records.filter keep
  let lost := r.records.length - kept.length
  { s with poolFree := s.poolFree + lost }.setRing k
    { r with records := kept, counters.lostRecords := bump r.counters.lostRecords lost }

/-- The record of a packet whose first cell is written at position `p` (R30). -/
def newRecord (p : Nat) (sm : Summary) (now : Epoch) : PacketRecord :=
  let copies := if sm.copies = 0 then 1 else sm.copies
  { pos := p, kind := sm.kind, offset := sm.offset, ecn := sm.ecn, exempt := sm.exempt, total := copies, left := copies,
    decision := .none, arrival := now }

/-- Creation of a packet record for an accepted first cell, where the pool and the quota allow it (R31, R32). A creation
refused for an empty pool raises POOL_EMPTY. -/
def State.createRecord (k : Fin 64) (p : Nat) (sm : Summary) (s : State) : State :=
  let r := s.ring k
  let untracked := { r with counters.untracked := bump r.counters.untracked 1 }
  if s.poolFree = 0 then (s.setRing k untracked).raiseAll .poolEmpty
  else if r.settings.quota ≤ r.records.length then s.setRing k untracked
  else
    { s with poolFree := s.poolFree - 1 }.setRing k { r with records := r.records ++ [newRecord p sm s.sje.epoch] }

/-- The record effects of an accepted write at position `p` (R24, R25), and its sender update (R42). -/
def State.acceptWrite (k : Fin 64) (p : Nat) (case : WriteCase) (sm : Option Summary) (s : State) : State :=
  let s := s.loseRecords k (fun rec => case != .resync && rec.pos != p)
  match sm with
  | none => s
  | some sm => (s.createRecord k p sm).updateSenders k sm.signature

/-- The tracking of a CELL_WRITE at position `p` of ring `k` (R19, R20): the case, and for an accepted write the record
effects and the sender update. -/
def State.trackWrite (k : Fin 64) (p : Nat) (sm : Option Summary) (s : State) : State :=
  let r := s.ring k
  let case := r.writeCase p
  let s := s.setRing k (r.moveWrite p case)
  if case = .rewrite then s else s.acceptWrite k p case sm

/-! ### Cell reads -/

/-- The cases of a cell read (R26). -/
inductive ReadCase where
  | advance | skipAhead | stray
  deriving DecidableEq, Repr

/-- The case of a CELL_READ at position `p` (R26). -/
def Ring.readCase (r : Ring) (p : Nat) : ReadCase :=
  if r.occ = 0 then .stray
  else if p = r.drainPos then .advance
  else if r.inSpan p then .skipAhead
  else .stray

/-- The position effect and the counters of a CELL_READ (R26 to R29). -/
def Ring.moveRead (r : Ring) (p : Nat) : ReadCase → Ring
  | .advance =>
    { r with drainPos := successor r.drainPos r.active.length, occ := r.occ - 1, reads := min 4095 (r.reads + 1),
             counters.cellsOut := bump r.counters.cellsOut 1 }
  | .skipAhead =>
    let k := distance p r.drainPos r.active.length
    { r with drainPos := successor p r.active.length, occ := r.occ - (k + 1), reads := min 4095 (r.reads + (k + 1)),
             counters.cellsOut := bump r.counters.cellsOut (k + 1),
             counters.skippedCells := bump r.counters.skippedCells k }
  | .stray => { r with counters.strayReads := bump r.counters.strayReads 1 }

/-- The header lookup (R33): the records before the first record of position `p` with copies left, that record, and the
records after it. -/
def lookupRecord (p : Nat) : List PacketRecord → Option (List PacketRecord × PacketRecord × List PacketRecord)
  | [] => none
  | rec :: rest =>
    if rec.pos = p ∧ 0 < rec.left then some ([], rec, rest)
    else (lookupRecord p rest).map (fun x => (rec :: x.1, x.2.1, x.2.2))

/-- Whether a record has been read at least once (R30). -/
def PacketRecord.wasRead (rec : PacketRecord) : Bool := rec.left != rec.total

/-- What a header read hands to the response entry (R78, R149). -/
structure HeaderRead where
  decision : Decision
  header : Option HeaderPlace
  deriving DecidableEq, Repr

/-- A read that carries no decision (R78). -/
def HeaderRead.plain : HeaderRead := { decision := .none, header := none }

/-- The found record after a header read with this decision: one less copy left, and gone at 0 (R33). -/
def PacketRecord.afterRead (rec : PacketRecord) (d : Decision) : List PacketRecord :=
  if rec.left = 1 then [] else [{ rec with decision := d, left := rec.left - 1 }]

/-- The header lookup and marking decision of a CELL_READ at position `p` of ring `k` (R33, R78), with Q as it stands
before the read's own position update. -/
def State.headerRead (k : Fin 64) (p : Nat) (s : State) : State × HeaderRead :=
  let r := s.ring k
  match lookupRecord p r.records with
  | none => (s, .plain)
  | some (older, rec, newer) =>
    let kept := older.filter PacketRecord.wasRead
    let m := r.markRead rec r.occ
    let records := kept ++ (rec.afterRead m.2 ++ newer)
    ({ s with poolFree := s.poolFree + (r.records.length - records.length) }.setRing k
        { m.1 with
          records := records
          counters.skippedUnread := bump m.1.counters.skippedUnread (older.length - kept.length) },
     { decision := m.2, header := headerPlace rec m.2 })

/-- The tracking of a CELL_READ at position `p` of ring `k` (R19): the header lookup, then the position case, which
does not depend on it. -/
def State.trackRead (k : Fin 64) (p : Nat) (s : State) : State × HeaderRead :=
  let case := (s.ring k).readCase p
  let h := s.headerRead k p
  (h.1.setRing k ((h.1.ring k).moveRead p case), h.2)

/-! ### Enable and disable -/

/-- Whether two regions share a cell (R36). -/
def Geometry.overlaps (a b : Geometry) : Bool := a.base < b.stop && b.base < a.stop

/-- Whether an enable of ring `k` is refused (R36). -/
def State.refusesEnable (s : State) (k : Fin 64) : Bool :=
  let g := (s.ring k).staged
  g.length < 2 || 65536 < g.length || 255 < g.lead || s.capacity.cells - 128 < g.stop ||
    (List.finRange 64).any (fun j => (s.ring j).isActive && g.overlaps (s.ring j).active)

/-- A ring at an enable that passes validation (R37). -/
def Ring.enabled (r : Ring) : Ring :=
  { r with state := .clear, active := r.staged, fillPos := 0, drainPos := 0, occ := 0, reads := 0, records := [],
           senders := [], drain := 0, ramp := 0, stall := 0, lastT := 0, settings := r.stagedSettings.taken, credit := 0 }

/-- A ring at its disable (R38). -/
def Ring.disabled (r : Ring) : Ring :=
  { r with state := .off, active := .zero, fillPos := 0, drainPos := 0, occ := 0, reads := 0, records := [],
           senders := [], drain := 0, ramp := 0, stall := 0, lastT := 0, credit := 0 }

/-- An enable word of 1 (R35, R36): no effect on an active ring; on an OFF ring it enables the ring, or raises
RING_REFUSED on the alert group of the ring's staged settings. -/
def State.enableRing (k : Fin 64) (s : State) : State :=
  if (s.ring k).isActive then s
  else if s.refusesEnable k then s.raiseOn (clampGroup (s.ring k).stagedSettings.alertGroup) .ringRefused
  else s.setRing k (s.ring k).enabled

/-- An enable word of 0 (R35, R38): no effect on an OFF ring; on an active ring it disables the ring and returns its
records to the pool without counting them as lost. -/
def State.disableRing (k : Fin 64) (s : State) : State :=
  if (s.ring k).isActive then
    { s with poolFree := s.poolFree + (s.ring k).records.length }.setRing k (s.ring k).disabled
  else s

end Sys2Proof.Machine
end

