-- ==== Sys2Proof/Machine/SoftReset.lean ====
section
/-! DEFINITION. The completion of a soft reset (R118, R167): one event in which every block takes its stated value. -/

namespace Sys2Proof.Machine

/-- Soft-reset completion (R167). The Hold Store is empty; the epoch number and timer, the active refresh interval until
its next reload, the queues, the bank records, the backlog, the channel state, the link and the requests stay. -/
def State.completeSoftReset (s : State) : State :=
  { s with
    rings := Vector.replicate 64 Ring.reset
    poolFree := s.poolFree + recordCount s.rings
    sje.el := 20
    sje.sl := 4
    fanInWindow := 8
    swu := .reset
    hst := { HoldStore.reset with slots := s.hst.slots }
    dcc.quietDelay := 0
    dcc.quietTimer := .stopped
    alerts := Vector.replicate 4 AlertLine.reset
    counters := .zero }

/-- The flush completes when fill is 0 (R116, R118), and the soft reset with it (R167). -/
def State.checkFlush (s : State) : State :=
  if s.hst.flush && s.hst.slots.isEmpty then s.completeSoftReset else s

/-- A soft-reset word of 1 (R165, R116): ignored while a soft reset is in progress. -/
def State.startSoftReset (s : State) : State :=
  if s.swu.softReset then s else { s with swu.softReset := true, hst.flush := true }.checkFlush

end Sys2Proof.Machine
end

