-- ==== Sys2Proof/Machine/HoldStore.lean ====
section
/-! DEFINITION. The Hold Store (06_the_hold_store.md): directory, admission, writes and reads of held cells, sendings,
retirement and ageing. -/

namespace Sys2Proof.Machine

/-- Fill: the number of non-FREE slots (R98). -/
def HoldStore.fill (h : HoldStore) : Nat := h.slots.length

/-- The high mark in use (R99). -/
def HoldStore.highInUse (h : HoldStore) : Nat := max h.highMark h.lowMark

/-- Whether fill has reached the high mark in use (R111). -/
def HoldStore.atHighMark (h : HoldStore) : Bool := decide (h.highInUse ≤ h.fill)

/-- The Hold Directory (R97): the slot that holds a cell index. -/
def HoldStore.lookup? (h : HoldStore) (cell : Nat) : Option Slot := h.slots.find? (fun x => x.cell == cell)

/-- The slot with this number, where it is not FREE. -/
def HoldStore.slot? (h : HoldStore) (n : Nat) : Option Slot := h.slots.find? (fun x => x.num == n)

/-- The oldest HELD slot (R98). -/
def HoldStore.oldestHeld? (h : HoldStore) : Option Slot := h.slots.find? (fun x => x.state == .held)

/-- A FREE slot, the lowest-numbered one (R101, log entry 7). -/
def HoldStore.freeSlot? (h : HoldStore) : Option Nat :=
  (List.range 2048).find? (fun n => h.slots.all (fun x => x.num != n))

/-- The age of a slot in epochs, mod 65536 (R98). -/
def Slot.age (now : Epoch) (x : Slot) : Nat := (now - x.admitted).toNat

/-- The retirement urgency (R110). -/
def HoldStore.urgency (h : HoldStore) (now : Epoch) : Urgency :=
  match h.oldestHeld? with
  | none => .none
  | some oldest =>
    if h.atHighMark || h.flush then .must
    else if h.lowMark ≤ h.fill ∨ h.ageLimit < oldest.age now then .need
    else .may

/-- The urgency the store answers as the state stands (R110). -/
def State.urgency (s : State) : Urgency := s.hst.urgency s.sje.epoch

/-- One slot changed in its place in the age order. -/
def HoldStore.update (h : HoldStore) (n : Nat) (f : Slot → Slot) : HoldStore :=
  { h with slots := h.slots.map (fun x => if x.num = n then f x else x) }

/-- One slot taken out of the age order. -/
def HoldStore.remove (h : HoldStore) (n : Nat) : HoldStore := { h with slots := h.slots.filter (fun x => x.num != n) }

/-- A slot joins the young end of the age order (R98). -/
def HoldStore.join (h : HoldStore) (x : Slot) : HoldStore := { h with slots := h.slots ++ [x] }

/-! ### Admission -/

/-- The admission test of a CELL_WRITE at an unheld ring position (R100), with the ring as the write's own tracking
leaves it. -/
def HoldStore.admits (h : HoldStore) (r : Ring) (copies : Nat) : Bool :=
  h.holdEnable && r.settings.holdEnable && r.state != .stalled && decide (1 ≤ copies) &&
    decide (sojourn r.occ r.drain < r.settings.hh) && h.freeSlot?.isSome && !h.flush

/-- STORE_MUST is raised when fill ≥ high mark in use becomes true after being false (R111). -/
def State.raiseStoreMust (before : HoldStore) (s : State) : State :=
  if !before.atHighMark && s.hst.atHighMark then s.raiseAll .storeMust else s

/-- An admitted write takes FREE slot `n` (R101). -/
def State.admitCell (k : Fin 64) (n cell : Nat) (data : List Byte) (s : State) : State :=
  let r := s.ring k
  let slot : Slot :=
    { num := n, state := .held, cell := cell, data := data, remaining := prefixCopies data, ring := k,
      admitted := s.sje.epoch }
  ({ s with hst := s.hst.join slot }.setRing k
    { r with counters.admitted := bump r.counters.admitted 1 }).raiseStoreMust s.hst

/-- A CELL_WRITE at an unheld position of ring `k`, after its tracking (R100 to R102): admitted, or bypassed to the write
queue where that has room. -/
def State.admitOrBypass (k : Fin 64) (cell : Nat) (data : List Byte) (s : State) : Option State :=
  let r := s.ring k
  match s.hst.admits r (prefixCopies data), s.hst.freeSlot? with
  | true, some n => some (s.admitCell k n cell data)
  | _, _ =>
    (s.setRing k { r with counters.bypassed := bump r.counters.bypassed 1 }).queueWrite cell (.full data)

/-! ### Writes and reads of held cells -/

/-- The remaining reads that a CELL_WRITE to a held cell sets (R103): a keep prefix sets 15. -/
def copiesForHeld (data : List Byte) : Nat := if prefixCopies data = 0 then 15 else prefixCopies data

/-- A CELL_WRITE to a held cell (R103, R104). -/
def State.overwrite (x : Slot) (data : List Byte) (s : State) : State :=
  let written := { x with data := data, remaining := copiesForHeld data }
  let hst :=
    match x.state with
    | .held => (s.hst.remove x.num).join { written with admitted := s.sje.epoch }
    | .retiring => s.hst.update x.num (fun _ => { written with state := .retiringWritten })
    | .retiringWritten => s.hst.update x.num (fun _ => written)
  { s with hst := hst, counters.overwrites := bump s.counters.overwrites 1 }.voidClaims x.num

/-- The state of a slot after a write to its cell (R104, R105). -/
def SlotState.afterWrite : SlotState → SlotState
  | .held => .held
  | .retiring => .retiringWritten
  | .retiringWritten => .retiringWritten

/-- A WORD_WRITE to a held cell (R105). -/
def State.mergeHeld (x : Slot) (w : Nat) (word : List Byte) (s : State) : State :=
  { s with
    hst := s.hst.update x.num
      (fun x => { x with data := mergeWord x.data w word, state := x.state.afterWrite }) }

/-! ### Sendings and elision -/

/-- A slot becomes FREE (R97, R98, R109): it leaves the age order and the directory, and every claim on it is voided. -/
def State.freeSlot (n : Nat) (s : State) : State := { s with hst := s.hst.remove n }.voidClaims n

/-- The sending of a response with a valid claim on a slot (R108), and the flush completion it can bring (R118). -/
def State.sendClaim (n : Nat) (s : State) : State :=
  match s.hst.slot? n with
  | none => s
  | some x =>
    if x.state = .held ∧ x.remaining = 1 then
      ({ s with counters.elided := bump s.counters.elided 1 }.freeSlot n).checkFlush
    else { s with hst := s.hst.update n (fun x => { x with remaining := x.remaining - 1 }) }

/-! ### Retirement -/

/-- A retirement's DRAM write completes (R113), and the flush completion it can bring (R118). -/
def State.completeRetirement (n : Nat) (s : State) : State :=
  match s.hst.slot? n with
  | none => s
  | some x =>
    match x.state with
    | .retiring => ({ s with counters.retired := bump s.counters.retired 1 }.freeSlot n).checkFlush
    | .retiringWritten =>
      { s with hst := (s.hst.remove n).join { x with state := .held, admitted := s.sje.epoch } }
    | .held => s

/-! ### Ageing -/

/-- A slot at an epoch expiry (R115): its age stays at most 255. -/
def Slot.expire (now : Epoch) (x : Slot) : Slot := if 255 < x.age now then { x with admitted := now - 255 } else x

/-- The store's expiry work (R115). -/
def HoldStore.expire (now : Epoch) (h : HoldStore) : HoldStore := { h with slots := h.slots.map (Slot.expire now) }

/-! ### Settings -/

/-- The store settings after device word 1 is written, with their clamps (R99). -/
def HoldStore.configure (holdEnable low high age : Nat) (h : HoldStore) : HoldStore :=
  { h with holdEnable := holdEnable != 0, lowMark := max 1 (min 2048 low), highMark := min 2048 high,
           ageLimit := max 1 (min 255 age) }

end Sys2Proof.Machine
end

