-- ==== Sys2Proof/Machine/Arbiter.lean ====
section
/-! DEFINITION. The DRAM Channel Controller (07_the_dram_channel.md): banks, the arbiter, retirements in hand, refresh,
and the QUIET state. -/

namespace Sys2Proof.Machine

/-! ### Banks and rows -/

/-- The bank of a cell (R123). -/
def bankOf (cell : Nat) : Fin 16 := ⟨cell / 8 % 16, Nat.mod_lt _ (by decide)⟩

/-- The row of a cell (R123). -/
def rowOf (cell : Nat) : Nat := cell / 128

/-- Whether an access to a cell is a row hit (R123). -/
def Channel.rowHit (c : Channel) (cell : Nat) : Bool := c.banks[bankOf cell] == some (rowOf cell)

/-- The nominal duration of an access to a cell, in ns (R123). -/
def Channel.accessTime (c : Channel) (cell : Nat) : Nat := if c.rowHit cell then 6 else 20

/-- An access to a cell begins (R123, R124): the bank record holds its row, and the operation is in flight. -/
def Channel.access (op : Operation) (cell : Nat) (c : Channel) : Channel :=
  { c with banks := c.banks.set (bankOf cell) (some (rowOf cell)),
           inFlight := some { op := op, duration := c.accessTime cell } }

/-! ### Urgencies -/

/-- The order of the urgencies (R110), and their encoding in the device report (R178). -/
def Urgency.rank : Urgency → Nat
  | .none => 0
  | .may => 1
  | .need => 2
  | .must => 3

/-- The higher of two urgencies (R131). -/
def Urgency.higher (a b : Urgency) : Urgency := if a.rank ≤ b.rank then b else a

/-- The urgency at which the retirement ranks refer to the store (R128, R131): the higher of the urgency at which a
retirement in hand was chosen and the urgency answered now. -/
def State.retirementRank (s : State) : Urgency :=
  match s.dcc.inHand with
  | some r => r.urgency.higher s.urgency
  | none => s.urgency

/-! ### Reads at rank 3 -/

/-- Whether a queued read is eligible: no queued write to its cell was taken before it (R129). -/
def Channel.eligible (c : Channel) (e : ReadEntry) : Bool :=
  c.writeQ.all (fun w => !(w.cell == e.cell && decide (w.seq < e.seq)))

/-- The entries that pass a test, or all of them where none does. -/
def preferring (test : ReadEntry → Bool) (es : List ReadEntry) : List ReadEntry :=
  if es.any test then es.filter test else es

/-- The read that rank 3 chooses: boosted reads first, then row hits, then the oldest (R129). -/
def Channel.chosenRead? (c : Channel) : Option ReadEntry :=
  (preferring (fun e => c.rowHit e.cell) (preferring (fun e => e.boost) (c.readQ.filter c.eligible))).head?

/-! ### Operations begin -/

/-- A queued read is performed: it leaves its queue at the choice (R124). -/
def Channel.beginRead (e : ReadEntry) (c : Channel) : Channel :=
  { c with readQ := c.readQ.filter (fun x => x.seq != e.seq) }.access (.read e false) e.cell

/-- A queued write is performed: it leaves its queue at the choice (R124). -/
def Channel.beginWrite (e : WriteEntry) (c : Channel) : Channel :=
  { c with writeQ := c.writeQ.filter (fun x => x.seq != e.seq) }.access (.write e) e.cell

/-- A refresh is performed (R134): the backlog falls by one, and every row closes. -/
def Channel.beginRefresh (c : Channel) : Channel :=
  { c with backlog := c.backlog - 1, banks := Channel.closedBanks, inFlight := some { op := .refresh, duration := 160 } }

/-- The operation performed for the retirement in hand (R130): the oldest queued read or write of its cell, and once none
is queued the retirement write itself. -/
def Channel.beginRetirement (r : Retirement) (c : Channel) : Channel :=
  match c.readQ.find? (fun e => e.cell == r.cell), c.writeQ.find? (fun e => e.cell == r.cell) with
  | none, none => c.access (.retirement r) r.cell
  | some e, none => c.beginRead e
  | none, some w => c.beginWrite w
  | some e, some w => if e.seq < w.seq then c.beginRead e else c.beginWrite w

/-- A retirement of the oldest HELD slot comes in hand at an urgency (R112, R130), and its operation begins. -/
def State.retire (u : Urgency) (s : State) : State :=
  match s.dcc.inHand with
  | some r => { s with dcc := s.dcc.beginRetirement r }
  | none =>
    match s.hst.oldestHeld? with
    | none => s
    | some x =>
      let r : Retirement := { slot := x.num, cell := x.cell, data := x.data, urgency := u }
      { s with
        hst := s.hst.update x.num (fun x => { x with state := .retiring })
        dcc := { s.dcc with inHand := some r }.beginRetirement r }

/-! ### The arbiter -/

/-- What the arbiter picks (R128). -/
inductive Choice where
  | refresh
  | retirement (u : Urgency)
  | read (e : ReadEntry)
  | write (e : WriteEntry)
  | nothing
  deriving DecidableEq, Repr

/-- Ranks 7 and 8 (R128). -/
def State.chooseLow (s : State) : Choice :=
  if 1 ≤ s.dcc.backlog then .refresh
  else if s.retirementRank = .may then .retirement .may
  else .nothing

/-- Ranks 4 to 8 (R128). -/
def State.chooseMiddle (s : State) : Choice :=
  if 4 ≤ s.dcc.backlog then .refresh
  else
    match s.dcc.writeQ with
    | w :: _ => .write w
    | [] => if s.retirementRank = .need then .retirement .need else s.chooseLow

/-- The arbiter's walk of the ranks (R128). -/
def State.choose (s : State) : Choice :=
  if 8 ≤ s.dcc.backlog then .refresh
  else if s.retirementRank = .must then .retirement .must
  else
    match s.dcc.chosenRead? with
    | some e => .read e
    | none => s.chooseMiddle

/-- The chosen operation begins (R124). -/
def State.perform (s : State) : Choice → State
  | .refresh => { s with dcc := s.dcc.beginRefresh }
  | .retirement u => s.retire u
  | .read e => { s with dcc := s.dcc.beginRead e }
  | .write e => { s with dcc := s.dcc.beginWrite e }
  | .nothing => s

/-- The arbiter's choice, made while the channel is free in RUN (R124). -/
def State.arbitrate (s : State) : State :=
  if s.dcc.state = .run ∧ s.dcc.inFlight = none then s.perform s.choose else s

/-! ### QUIET -/

/-- Whether the quiet conditions hold (R136). -/
def State.quietHolds (s : State) : Bool :=
  s.dcc.quietDelay != 0 && s.dcc.quietTimer == .expired && s.rfe.rq.isEmpty && s.dcc.readQ.isEmpty &&
    s.dcc.writeQ.isEmpty && s.dcc.inFlight.isNone && s.hst.slots.isEmpty && s.dcc.backlog == 0

/-- Entry into QUIET from RUN, at the event that makes the last condition true (R136). -/
def State.enterQuiet (s : State) : State :=
  if s.dcc.state = .run ∧ s.quietHolds then
    { s with dcc.state := .quiet, dcc.banks := Channel.closedBanks, dcc.refreshTimer := none }
  else s

/-- DRAM work arriving in QUIET puts the channel into WAKING (R136). -/
def State.wake (s : State) : State :=
  if s.dcc.state = .quiet ∧ (s.dcc.readQ ≠ [] ∨ s.dcc.writeQ ≠ [] ∨ s.urgency ≠ .none) then
    { s with dcc.state := .waking }
  else s

/-- The quiet timer loaded with a quiet delay: 0 stops it (R136). -/
def loadQuiet (delay : Nat) : QuietTimer := if delay = 0 then .stopped else .running delay

/-- The clamp of the refresh interval as it is taken (R133). -/
def clampRefresh (n : Nat) : Nat := max 10 (min 100 n)

/-- The refresh timer loaded, taking the staged interval (R133). -/
def State.loadRefresh (s : State) : State :=
  { s with dcc.refreshInterval := clampRefresh s.swu.stagedRefresh
           dcc.refreshTimer := some (clampRefresh s.swu.stagedRefresh) }

/-- The channel enters RUN with the backlog 0, all rows closed and the refresh timer loaded (R135). -/
def State.enterRun (s : State) : State :=
  { s with dcc.state := .run, dcc.banks := Channel.closedBanks, dcc.backlog := 0 }.loadRefresh

end Sys2Proof.Machine
end

