-- ==== Sys2Proof/Machine/Link.lean ====
section
/-! DEFINITION. The Cell Link Port (08_the_cell_link_and_request_flow.md): training, the transmitter, the link drop; and
what every event brings with it by itself (`State.settle`). -/

namespace Sys2Proof.Machine

/-- All eight receive lanes are locked (R140). -/
def LinkPort.allLocked (c : LinkPort) : Bool := c.lanes == 0xFF

/-- The link leaves DOWN once the channel has left INIT and all eight lanes are locked (R140): TRAINING is entered and
the first attempt begins (R141). -/
def State.startTraining (s : State) : State :=
  if s.clp.state = .down ∧ s.dcc.state ≠ .init ∧ s.clp.allLocked then
    { s with clp.state := .training, clp.attempt := 1 }
  else s

/-- A CREDIT frame starts: it carries the whole owed count, which falls to 0 (R143). -/
def State.startCredit (s : State) : State :=
  { s with clp.tx := .credit (creditFrame s.clp.owed), clp.owed := 0, clp.lastWasCredit := true }

/-- A READ_DATA frame of READY entry `n` starts: the entry is SENDING (R151). -/
def State.startResponse (n : Nat) (rest : List Nat) (s : State) : State :=
  match s.rfe.responses.find? (fun r => r.id == n) with
  | none => s
  | some r =>
    { s with clp.tx := .readData n (readDataFrame r), clp.lastWasCredit := false, rfe.ready := rest }.updateResponse n
      (fun r => { r with state := .sending })

/-- The transmitter's choice of the next frame (R151), made while the link is UP and the transmitter is idle. -/
def State.transmit (s : State) : State :=
  if s.clp.state = .up ∧ s.clp.tx = .idle then
    if 0 < s.clp.owed ∧ s.clp.lastWasCredit = false then s.startCredit
    else
      match s.rfe.ready with
      | n :: rest => s.startResponse n rest
      | [] => if 0 < s.clp.owed then s.startCredit else s
  else s

/-- What every event brings with it by itself, once its own effect is complete: the link starts training where it may
(R140), a QUIET channel wakes for DRAM work (R136), a free channel in RUN makes its choice (R124), the channel enters
QUIET where its conditions hold (R136), and an idle transmitter chooses its next frame (R151). That each is tested after
every event is log entry 13; that the channel so enters QUIET in the step of a link drop which empties the Request Queue,
where R135 and R137 say that a drop leaves the channel state, is DESIGN CHOICE, log entry 18. -/
def State.settle (s : State) : State := s.startTraining.wake.arbitrate.enterQuiet.transmit

/-- The operation in flight after a link drop: a read completes, and its bytes are dropped (R132, R137). -/
def InFlight.dropRead (f : InFlight) : InFlight :=
  match f.op with
  | .read e _ => { f with op := .read e true }
  | .write _ => f
  | .retirement _ => f
  | .refresh => f

/-- A link drop (R154, R137): the entry into DOWN from UP. -/
def State.dropLink (s : State) : State :=
  { s with
    clp.state := .down
    clp.attempt := 0
    clp.owed := 0
    clp.tx := .idle
    rfe := .reset
    dcc.readQ := []
    dcc.inFlight := s.dcc.inFlight.map InFlight.dropRead
    counters.discarded := bump s.counters.discarded s.rfe.rq.length
    counters.linkDrops := bump s.counters.linkDrops 1 }.raiseAll .linkFault

/-- The link goes to DOWN at the loss of a lane or a link-reset frame (R140): from UP with a link drop, from TRAINING
without one. -/
def State.linkDown (s : State) : State :=
  match s.clp.state with
  | .up => s.dropLink
  | .training => { s with clp.state := .down, clp.attempt := 0 }
  | .down => s

/-- The link enters UP (R141, R143): 64 credits are owed. -/
def State.linkUp (s : State) : State := { s with clp.state := .up, clp.attempt := 0, clp.owed := 64 }

/-- The bits of the lanes after one is lost. -/
def clearLane (lanes : BitVec 8) (lane : Fin 8) : BitVec 8 := lanes &&& ~~~(1#8 <<< lane.val)

end Sys2Proof.Machine
end

