-- ==== Sys2Proof/Machine/Report.lean ====
section
/-! DEFINITION. The report window (R169 to R173): the bytes of each report cell, formed from the live state by the
tables of 11_layouts_and_signals.md. -/

namespace Sys2Proof.Machine

/-- A one-byte field. -/
def field1 (v : Nat) : List Byte := leBytes 1 v

/-- A two-byte field. -/
def field2 (v : Nat) : List Byte := leBytes 2 v

/-- A four-byte field. -/
def field4 (v : Nat) : List Byte := leBytes 4 v

/-- A field's bit at a place. -/
def bitAt (b : Bool) (place : Nat) : Nat := if b then 2 ^ place else 0

/-! ### Encodings -/

/-- The fitted capacity (R178). -/
def Capacity.code : Capacity → Nat
  | .gib4 => 0
  | .gib8 => 1

/-- The channel state. -/
def ChannelState.code : ChannelState → Nat
  | .init => 0
  | .run => 1
  | .quiet => 2
  | .waking => 3

/-- The link state. -/
def LinkState.code : LinkState → Nat
  | .down => 0
  | .training => 1
  | .up => 2

/-- The ring state. -/
def RingState.code : RingState → Nat
  | .off => 0
  | .clear => 1
  | .congested => 2
  | .incast => 3
  | .stalled => 4

/-- The alert mode. -/
def AlertMode.code : AlertMode → Nat
  | .level => 0
  | .inverted => 1
  | .pulseHigh => 2
  | .pulseLow => 3

/-- The pulse width. -/
def PulseWidth.code : PulseWidth → Nat
  | .us1 => 0
  | .us10 => 1
  | .us100 => 2
  | .ms1 => 3

/-- Whether a direction is DOWN. -/
def Direction.isDown : Direction → Bool
  | .up => false
  | .down => true

/-! ### The device report -/

/-- Bytes 40+8n .. 47+8n: one alert line. -/
def AlertLine.report (l : AlertLine) : List Byte :=
  field1 l.mode.code ++ field1 l.width.code ++ field1 l.mask.toNat ++ field1 l.flags.toNat ++
    field1 (bitAt l.driven 0 + bitAt l.pulse.isSome 1) ++ zeros 3

/-- Bytes 72..123: the device counters (R173). -/
def DeviceCounters.report (c : DeviceCounters) : List Byte :=
  field4 c.hits ++ field4 c.misses ++ field4 c.elided ++ field4 c.retired ++ field4 c.overwrites ++
    field4 c.refreshOverruns ++ field4 c.linkDrops ++ field4 c.discarded ++ field4 c.integrityFailures ++
    field4 c.rqOverflows ++ field4 c.tagReuses ++ field4 c.rangeErrors ++ field4 c.evictions

/-- The age of the oldest HELD slot, or 0 when no slot is HELD (R122). -/
def State.oldestHeldAge (s : State) : Nat :=
  match s.hst.oldestHeld? with
  | some x => x.age s.sje.epoch
  | none => 0

/-- The retirement in hand: 0 for none, else the urgency at which it ranks (R139). -/
def State.inHandRank (s : State) : Nat := if s.dcc.inHand.isSome then s.retirementRank.rank else 0

/-- Bytes 0..39 of the device report (R170). -/
def State.deviceHead (s : State) : List Byte :=
  field1 s.capacity.code ++ field1 (bitAt s.swu.softReset 0 + bitAt s.hst.flush 1) ++
    field2 s.sje.epoch.toNat ++ field2 s.sje.el ++ field2 s.sje.sl ++ field2 s.fanInWindow ++ field2 s.poolFree ++
    field2 s.hst.fill ++ field1 s.urgency.rank ++ field1 s.oldestHeldAge ++
    field1 (bitAt s.hst.holdEnable 0) ++ field1 s.hst.ageLimit ++ field2 s.hst.lowMark ++ field2 s.hst.highInUse ++
    field1 s.dcc.state.code ++ field1 s.dcc.backlog ++ field1 s.dcc.readQ.length ++ field1 s.dcc.writeQ.length ++
    field1 s.inHandRank ++ field1 s.dcc.quietDelay ++ field2 s.dcc.refreshInterval ++
    field1 s.clp.state.code ++ field1 s.rfe.rq.length ++ field1 s.rfe.responses.length ++ field1 s.clp.owed ++ zeros 6

/-- The device report, report cell 0 (R170). -/
def State.deviceReport (s : State) : List Byte :=
  s.deviceHead ++ (s.alerts[0].report ++ s.alerts[1].report ++ s.alerts[2].report ++ s.alerts[3].report) ++
    s.counters.report ++ zeros 132

/-! ### Ring reports -/

/-- Bytes 64..127 of a ring report: the ring's counters (R173). -/
def RingCounters.report (c : RingCounters) : List Byte :=
  field4 c.cellsIn ++ field4 c.cellsOut ++ field4 c.untracked ++ field4 c.resyncs ++ field4 c.overruns ++
    field4 c.rewrites ++ field4 c.skippedCells ++ field4 c.skippedUnread ++ field4 c.lostRecords ++
    field4 c.strayReads ++ field4 c.marked ++ field4 c.ceAlready ++ field4 c.unmarkable ++ field4 c.exempt ++
    field4 c.admitted ++ field4 c.bypassed

/-- Base, length and lead of a geometry, 10 bytes. -/
def Geometry.report (g : Geometry) : List Byte := field4 g.base ++ field4 g.length ++ field2 g.lead

/-- Header position of the record at the head of the list, or 0 (R171). -/
def Ring.headPosition (r : Ring) : Nat := (r.records.head?.map (fun x => x.pos)).getD 0

/-- Arrival epoch of the record at the head of the list, or 0 (R171). -/
def Ring.headArrival (r : Ring) : Nat := (r.records.head?.map (fun x => x.arrival.toNat)).getD 0

/-- The number of non-FREE slots that carry a ring's number (R122). -/
def HoldStore.heldFor (h : HoldStore) (k : Fin 64) : Nat := (h.slots.filter (fun x => x.ring == k)).length

/-- Bytes 0..7 of a ring report (R178). -/
def Ring.reportFlags (r : Ring) (now : Epoch) (w : Nat) : List Byte :=
  field1 r.state.code ++ field1 r.ramp ++ field1 r.stall ++ field1 (fanIn r.senders now w) ++ field1 r.senders.length ++
    field1 (bitAt r.active.direction.isDown 0 + bitAt r.staged.direction.isDown 1 +
      bitAt (r.settings.policy == .carry) 2 + bitAt r.settings.holdEnable 3 + 16 * r.settings.dw) ++
    field1 r.credit ++ field1 (r.settings.alertGroup.val + 16 * r.settings.ml)

/-- The report of ring `k`, 128 bytes (R171). -/
def State.ringReport (s : State) (k : Fin 64) : List Byte :=
  let r := s.ring k
  r.reportFlags s.sje.epoch s.fanInWindow ++ r.active.report ++ r.staged.report ++
    field2 r.fillPos ++ field2 r.drainPos ++ field4 r.occ ++ field2 r.reads ++
    field2 r.records.length ++ field2 r.headPosition ++ field2 r.headArrival ++ field2 r.drain ++ field2 r.lastT ++
    field2 r.settings.tl ++ field2 r.settings.th ++ field2 r.settings.ps ++ field2 r.settings.qf ++
    field2 r.settings.hh ++ field2 r.settings.quota ++ field2 (s.hst.heldFor k) ++ field1 r.settings.ft ++ zeros 1 ++
    r.counters.report

/-! ### Sender lists -/

/-- One sender entry: signature, age, and packets shown as 255 when 255 or more (R51). -/
def Sender.report (now : Epoch) (e : Sender) : List Byte :=
  field2 e.signature.toNat ++ field1 (e.age now) ++ field1 (min 255 e.packets)

/-- The 64 bytes of a ring's Sender List; the slots past its end read as zero (R51). -/
def State.senderReport (s : State) (k : Fin 64) : List Byte :=
  ((s.ring k).senders.flatMap (Sender.report s.sje.epoch) ++ zeros 64).take 64

/-! ### Report cells -/

/-- A ring number. -/
def ringNumber (n : Nat) : Fin 64 := Fin.ofNat 64 n

/-- The 256 bytes of a report cell (R169). -/
def State.reportCell (s : State) (n : Nat) : List Byte :=
  if n = 0 then s.deviceReport
  else if n ≤ 32 then s.ringReport (ringNumber (2 * (n - 1))) ++ s.ringReport (ringNumber (2 * (n - 1) + 1))
  else if n ≤ 48 then
    s.senderReport (ringNumber (4 * (n - 33))) ++ s.senderReport (ringNumber (4 * (n - 33) + 1)) ++
      s.senderReport (ringNumber (4 * (n - 33) + 2)) ++ s.senderReport (ringNumber (4 * (n - 33) + 3))
  else zeros 256

/-- The bytes of a report read of this extent (R169). -/
def State.reportData (s : State) (n : Nat) : Extent → List Byte
  | .cell => s.reportCell n
  | .word w => wordOf (s.reportCell n) w

end Sys2Proof.Machine
end

