-- ==== Sys2Proof/Machine/Control.lean ====
section
/-! DEFINITION. The decoding of control-window writes (R158 to R165): each control word, and the effect of writing it. -/

namespace Sys2Proof.Machine

/-- A word of the control window: control cell, word of the cell (R158). -/
inductive ControlWord where
  /-- device word 0: EL; W; SL -/
  | epochSettings
  /-- device word 1: hold enable; low mark; high mark; AL -/
  | storeSettings
  /-- device word 2: refresh interval; quiet delay -/
  | refreshQuiet
  /-- device words 3..6: an alert line's mode, width and mask -/
  | alertLine (n : Fin 4)
  /-- device word 7: the soft-reset word -/
  | softReset
  /-- ring words 0..6 of ring `k` -/
  | ring (k : Fin 64) (j : Fin 7)
  /-- ring word 7: the enable word of ring `k` -/
  | enable (k : Fin 64)
  /-- clear word 0: the counter-clear word -/
  | counterClear
  /-- clear words 1..4: the flag-clear word of a line -/
  | flagClear (n : Fin 4)
  /-- a word that is not decoded -/
  | plain
  deriving DecidableEq, Repr

/-- The words of the device record (R160). -/
def deviceWord : Nat → ControlWord
  | 0 => .epochSettings
  | 1 => .storeSettings
  | 2 => .refreshQuiet
  | 3 => .alertLine 0
  | 4 => .alertLine 1
  | 5 => .alertLine 2
  | 6 => .alertLine 3
  | 7 => .softReset
  | _ => .plain

/-- The words of a ring record (R161). -/
def ringWord (k : Fin 64) (j : Nat) : ControlWord :=
  if h : j < 7 then .ring k ⟨j, h⟩ else .enable k

/-- The words of the clear record (R163, R164). -/
def clearWord : Nat → ControlWord
  | 0 => .counterClear
  | 1 => .flagClear 0
  | 2 => .flagClear 1
  | 3 => .flagClear 2
  | 4 => .flagClear 3
  | _ => .plain

/-- The control word at word `w` of control cell `n` (R158): ring k's record lies in cell 1 + k div 4, at words
8·(k mod 4) on. -/
def controlWord (n w : Nat) : ControlWord :=
  if n = 0 then deviceWord w
  else if n ≤ 16 then ringWord (ringNumber (4 * (n - 1) + w / 8)) (w % 8)
  else if n = 17 then clearWord w
  else .plain

/-! ### The effects -/

/-- Device word 0 stages EL, W and SL (R160). -/
def State.stageEpochSettings (w : List Byte) (s : State) : State :=
  { s with swu.stagedEl := leField w 0 2, swu.stagedW := leField w 2 2, swu.stagedSl := leField w 4 2 }

/-- Device word 1 applies the store settings at once (R99), and may raise STORE_MUST (R111). -/
def State.writeStoreSettings (w : List Byte) (s : State) : State :=
  { s with hst := s.hst.configure (leField w 0 1) (leField w 2 2) (leField w 4 2) (leField w 6 2) }.raiseStoreMust s.hst

/-- Device word 2 stages the refresh interval (R133), and applies the quiet delay at once (R136). -/
def State.writeRefreshQuiet (w : List Byte) (s : State) : State :=
  let delay := min 255 (leField w 2 2)
  { s with swu.stagedRefresh := leField w 0 2, dcc.quietDelay := delay, dcc.quietTimer := loadQuiet delay }

/-- Device words 3..6 set a line's mode, width and mask at once (R177, R178). -/
def State.writeAlertLine (n : Fin 4) (w : List Byte) (s : State) : State :=
  { s with alerts := s.alerts.set n (s.alerts[n].configure (.ofBits (leField w 0 1 % 4)) (.ofBits (leField w 1 1 % 4))
    (BitVec.ofNat 7 (leField w 2 1))) }

/-- A ring with one of its ring words 0..6 written (R161): geometry and settings are staged as written. -/
def Ring.writeWord (r : Ring) (j : Fin 7) (w : List Byte) : Ring :=
  match j with
  | 0 => { r with staged := r.staged.setWord0 w }
  | 1 => { r with staged := r.staged.setWord1 w }
  | 2 => { r with stagedSettings := r.stagedSettings.setWord2 w }
  | 3 => { r with stagedSettings := r.stagedSettings.setWord3 w }
  | 4 => { r with stagedSettings := r.stagedSettings.setWord4 w }
  | 5 => { r with stagedSettings := r.stagedSettings.setWord5 w }
  | 6 => r

/-- An enable word, read as one 8-byte little-endian number: only 0 and 1 act (R35, R161). -/
def State.writeEnable (k : Fin 64) (w : List Byte) (s : State) : State :=
  if leNat w = 1 then s.enableRing k else if leNat w = 0 then s.disableRing k else s

/-- The soft-reset word: only 1 acts (R165). -/
def State.writeSoftReset (w : List Byte) (s : State) : State := if leNat w = 1 then s.startSoftReset else s

/-- Every counter of every block at 0 (R163). -/
def State.clearCounters (s : State) : State :=
  { s with counters := .zero, rings := s.rings.map (fun r => { r with counters := .zero }) }

/-- The counter-clear word: only 1 acts (R163). -/
def State.writeCounterClear (w : List Byte) (s : State) : State := if leNat w = 1 then s.clearCounters else s

/-- A flag-clear word: byte 0 in the event bit numbering (R164, R178). -/
def State.writeFlagClear (n : Fin 4) (w : List Byte) (s : State) : State :=
  { s with alerts := s.alerts.set n (s.alerts[n].clear (BitVec.ofNat 7 (leField w 0 1))) }

/-- The effect of writing one control word (R159). -/
def State.writeControl (c : ControlWord) (w : List Byte) (s : State) : State :=
  match c with
  | .epochSettings => s.stageEpochSettings w
  | .storeSettings => s.writeStoreSettings w
  | .refreshQuiet => s.writeRefreshQuiet w
  | .alertLine n => s.writeAlertLine n w
  | .softReset => s.writeSoftReset w
  | .ring k j => s.setRing k ((s.ring k).writeWord j w)
  | .enable k => s.writeEnable k w
  | .counterClear => s.writeCounterClear w
  | .flagClear n => s.writeFlagClear n w
  | .plain => s

/-- The 32 words of a CELL_WRITE of control cell `n`, decoded in ascending order, each complete before the next
(R159). -/
def State.writeControlCell (n : Nat) (data : List Byte) (s : State) : State :=
  (List.range 32).foldl (fun t w => t.writeControl (controlWord n w) (wordOf data w)) s

/-! ### What a request at the head carries -/

/-- The control words a request writes, with their bytes: none for a read, and none outside the control window
(R157). -/
def State.controlWords (s : State) : Request → List (ControlWord × List Byte)
  | .cellWrite cell data =>
    match s.cellClass cell with
    | .control n => (List.range 32).map (fun w => (controlWord n w, wordOf data w))
    | .outOfRange => []
    | .report _ => []
    | .buffer => []
  | .wordWrite cell w data =>
    match s.cellClass cell with
    | .control n => [(controlWord n w, data)]
    | .outOfRange => []
    | .report _ => []
    | .buffer => []
  | .cellRead _ _ => []
  | .wordRead _ _ _ => []

/-- Whether the request at the head of the Request Queue is a control-window write that carries a word passing a test. -/
def State.headCarries (test : ControlWord → List Byte → Bool) (s : State) : Bool :=
  match s.rfe.rq with
  | [] => false
  | r :: _ => (s.controlWords r).any (fun x => test x.1 x.2)

end Sys2Proof.Machine
end

