-- ==== Sys2Proof/Machine/Take.lean ====
section
/-! DEFINITION. The takes of the Request Front End (R144 to R149, R157). A take function is given the state after its
request has left the queue, and answers none where the request needs an entry that is not free: it then stays at the
head (R144). -/

namespace Sys2Proof.Machine

/-! ### Writes -/

/-- A control-window write joins the write queue and is decoded in the same take (R148, R157, R159). -/
def State.takeControlCell (n cell : Nat) (data : List Byte) (s : State) : Option State :=
  (s.queueWrite cell (.full data)).map (fun t => t.writeControlCell n data)

/-- The WORD_WRITE of a control cell. -/
def State.takeControlWord (n cell w : Nat) (data : List Byte) (s : State) : Option State :=
  (s.queueWrite cell (.partialWord w data)).map (fun t => t.writeControl (controlWord n w) data)

/-- A CELL_WRITE at position `p` of ring `k` (R148): tracking and sender update, then overwrite, admission or bypass. -/
def State.takePositionWrite (k : Fin 64) (p cell : Nat) (data : List Byte) (s : State) : Option State :=
  let t := s.trackWrite k p (summaryOf data)
  match t.hst.lookup? cell with
  | some x => some (t.overwrite x data)
  | none => t.admitOrBypass k cell data

/-- A CELL_WRITE to a buffer cell that is no ring position (R100, R148): overwrite of a held slot, or the write queue. -/
def State.takePlainWrite (cell : Nat) (data : List Byte) (s : State) : Option State :=
  match s.hst.lookup? cell with
  | some x => some (s.overwrite x data)
  | none => s.queueWrite cell (.full data)

/-- The take of a CELL_WRITE (R145, R148). -/
def State.takeCellWrite (cell : Nat) (data : List Byte) (s : State) : Option State :=
  match s.cellClass cell with
  | .outOfRange => some s.rangeError
  | .report _ => some s
  | .control n => s.takeControlCell n cell data
  | .buffer =>
    match s.ringClass cell with
    | .position k p => s.takePositionWrite k p cell data
    | .lead _ => s.takePlainWrite cell data
    | .other => s.takePlainWrite cell data

/-- The take of a WORD_WRITE (R145, R148). -/
def State.takeWordWrite (cell w : Nat) (data : List Byte) (s : State) : Option State :=
  match s.cellClass cell with
  | .outOfRange => some s.rangeError
  | .report _ => some s
  | .control n => s.takeControlWord n cell w data
  | .buffer =>
    match s.hst.lookup? cell with
    | some x => some (s.mergeHeld x w data)
    | none => s.queueWrite cell (.partialWord w data)

/-! ### Reads -/

/-- A response entry of a read, READY at once with these bytes and no claim and no decision. -/
def readyResponse (id : Nat) (tag : Tag) (x : Extent) (status : Status) (data : List Byte) : Response :=
  { id := id, state := .ready, tag := tag, extent := x, status := status, data := data, decision := .none,
    header := none, claim := none }

/-- A response entry of a read that waits for DRAM. -/
def waitingResponse (id : Nat) (tag : Tag) (x : Extent) (h : HeaderRead) : Response :=
  { id := id, state := .waiting, tag := tag, extent := x, status := .ok, data := [], decision := h.decision,
    header := h.header, claim := none }

/-- A read whose tag is outstanding (R146). -/
def State.takeTagReused (id : Nat) (tag : Tag) (x : Extent) (s : State) : State :=
  { s with counters.tagReuses := bump s.counters.tagReuses 1 }.raiseAll .linkFault
    |>.addResponse (readyResponse id tag x .tagReused (zeros x.size))

/-- An out-of-range read (R147). -/
def State.takeRangeRead (id : Nat) (tag : Tag) (x : Extent) (s : State) : State :=
  s.rangeError.addResponse (readyResponse id tag x .range (zeros x.size))

/-- A report-window read (R157, R169): the data are formed from the state as it stands with the read's own entry
reserved (R156). -/
def State.takeReportRead (n id : Nat) (tag : Tag) (x : Extent) (s : State) : State :=
  let data := (s.addResponse (readyResponse id tag x .ok [])).reportData n x
  s.addResponse (readyResponse id tag x .ok data)

/-- A read that waits for DRAM (R125, R149). -/
def State.takeDramRead (cell id : Nat) (tag : Tag) (x : Extent) (h : HeaderRead) (boost : Bool) (s : State) :
    Option State :=
  (s.addResponse (waitingResponse id tag x h)).queueRead cell x id boost

/-- The bytes of a held slot that a hit of this extent copies (R106, R107). -/
def slotBytes (slot : Slot) : Extent → List Byte
  | .cell => slot.data
  | .word w => wordOf slot.data w

/-- The claim that a hit of this extent takes (R106, R107). -/
def slotClaim (slot : Slot) : Extent → Option Nat
  | .cell => some slot.num
  | .word _ => none

/-- A hit (R106, R107): the slot's data are copied into the entry, rewritten there if the read carries MARK (R88). -/
def State.takeHit (slot : Slot) (id : Nat) (tag : Tag) (x : Extent) (h : HeaderRead) (s : State) : State :=
  { s with counters.hits := bump s.counters.hits 1 }.addResponse
    { id := id, state := .ready, tag := tag, extent := x, status := .ok,
      data := rewritten h.header (slotBytes slot x), decision := h.decision, header := h.header,
      claim := slotClaim slot x }

/-- A read of a buffer cell, with what its header lookup gave: a hit, or a miss queued for DRAM (R106, R107, R149). -/
def State.takeBufferRead (cell id : Nat) (tag : Tag) (x : Extent) (h : HeaderRead) (boost : Bool) (s : State) :
    Option State :=
  match s.hst.lookup? cell with
  | some slot => some (s.takeHit slot id tag x h)
  | none =>
    { s with counters.misses := bump s.counters.misses 1 }.takeDramRead cell id tag x h boost

/-- A CELL_READ of a buffer cell (R149): at a ring position it is tracked and looked up, and boosted if the ring is
INCAST (R125). -/
def State.takeBufferCellRead (cell id : Nat) (tag : Tag) (s : State) : Option State :=
  match s.ringClass cell with
  | .position k p =>
    let t := s.trackRead k p
    t.1.takeBufferRead cell id tag .cell t.2 ((s.ring k).state == .incast)
  | .lead _ => s.takeBufferRead cell id tag .cell .plain false
  | .other => s.takeBufferRead cell id tag .cell .plain false

/-- The take of a CELL_READ (R145, R149); it needs a free response entry whatever its outcome (R144). -/
def State.takeCellRead (cell : Nat) (tag : Tag) (s : State) : Option State :=
  match s.rfe.freeEntry? with
  | none => none
  | some id =>
    if tag ∈ s.rfe.tags then some (s.takeTagReused id tag .cell)
    else
      match s.cellClass cell with
      | .outOfRange => some (s.takeRangeRead id tag .cell)
      | .report n => some (s.takeReportRead n id tag .cell)
      | .control _ => s.takeDramRead cell id tag .cell .plain false
      | .buffer => s.takeBufferCellRead cell id tag

/-- The take of a WORD_READ (R145, R149). -/
def State.takeWordRead (cell w : Nat) (tag : Tag) (s : State) : Option State :=
  match s.rfe.freeEntry? with
  | none => none
  | some id =>
    if tag ∈ s.rfe.tags then some (s.takeTagReused id tag (.word w))
    else
      match s.cellClass cell with
      | .outOfRange => some (s.takeRangeRead id tag (.word w))
      | .report n => some (s.takeReportRead n id tag (.word w))
      | .control _ => s.takeDramRead cell id tag (.word w) .plain false
      | .buffer => s.takeBufferRead cell id tag (.word w) .plain false

/-! ### The head of the queue -/

/-- The take of a request that has left the queue. -/
def State.takeRequest (r : Request) (s : State) : Option State :=
  match r with
  | .cellWrite cell data => s.takeCellWrite cell data
  | .wordWrite cell w data => s.takeWordWrite cell w data
  | .cellRead cell tag => s.takeCellRead cell tag
  | .wordRead cell w tag => s.takeWordRead cell w tag

/-- The take of the head of the Request Queue, and what it brings with it; where its need is not met, or the queue is
empty, nothing is taken and nothing changes (R144). -/
def State.takeHead (s : State) : State :=
  match s.rfe.rq with
  | [] => s
  | r :: rest =>
    match (s.popHead rest).takeRequest r with
    | some t => t.settle
    | none => s

/-- The take of the head where it is a request the command names; another head is not that command's, and nothing
changes (log entry 1). -/
def State.takeIf (named : Bool) (s : State) : State := if named then s.takeHead else s

/-- Whether the head of the Request Queue passes a test. -/
def State.headIs (test : Request → Bool) (s : State) : Bool :=
  match s.rfe.rq with
  | [] => false
  | r :: _ => test r

/-- The kinds of request. -/
def Request.isCellWrite : Request → Bool
  | .cellWrite _ _ => true
  | .wordWrite _ _ _ => false
  | .cellRead _ _ => false
  | .wordRead _ _ _ => false

def Request.isWordWrite : Request → Bool
  | .cellWrite _ _ => false
  | .wordWrite _ _ _ => true
  | .cellRead _ _ => false
  | .wordRead _ _ _ => false

def Request.isCellRead : Request → Bool
  | .cellWrite _ _ => false
  | .wordWrite _ _ _ => false
  | .cellRead _ _ => true
  | .wordRead _ _ _ => false

def Request.isWordRead : Request → Bool
  | .cellWrite _ _ => false
  | .wordWrite _ _ _ => false
  | .cellRead _ _ => false
  | .wordRead _ _ _ => true

end Sys2Proof.Machine
end

