-- ==== Sys2Proof/Machine/Completions.lean ====
section
/-! DEFINITION. The meanings of READ_COMPLETION, WRITE_COMPLETION, RETIREMENT_COMPLETION and REFRESH_COMPLETION. A
completion that no operation in flight stands behind does not occur (log entry 2). -/

namespace Sys2Proof.Machine

/-- The operation in flight. -/
def State.operation? (s : State) : Option Operation := s.dcc.inFlight.map (fun f => f.op)

/-- The channel is free after a completion (R124). -/
def State.freeChannel (s : State) : State := { s with dcc.inFlight := none }

/-- The bytes of a read land in its response entry, rewritten if it carries MARK, and the entry is READY (R132, R88,
R150). -/
def State.landBytes (n : Nat) (bytes : List Byte) (s : State) : State :=
  { s with rfe.ready := s.rfe.ready ++ [n] }.updateResponse n
    (fun r => { r with state := .ready, data := rewritten r.header bytes })

/-- A read completes (R132); the bytes of one whose entry a link drop discarded are dropped. -/
def State.completeRead (e : ReadEntry) (dropped : Bool) (s : State) : State :=
  if dropped || s.rfe.responses.all (fun r => r.id != e.entry) then s.freeChannel
  else s.freeChannel.landBytes e.entry (s.dram.readExtent e.cell e.extent)

/-- READ_COMPLETION (R132). -/
def execReadCompletion (s : State) : Host.Outcome State Fault Refusal :=
  match s.operation? with
  | some (.read e dropped) => .next (s.completeRead e dropped).settle
  | some (.write _) => .next s
  | some (.retirement _) => .next s
  | some .refresh => .next s
  | none => .next s

/-- A queued write completes: the array is updated (R123, R124). -/
def State.completeWrite (e : WriteEntry) (s : State) : State :=
  { s.freeChannel with dram := s.dram.store e.cell e.payload }

/-- WRITE_COMPLETION (R124). -/
def execWriteCompletion (s : State) : Host.Outcome State Fault Refusal :=
  match s.operation? with
  | some (.write e) => .next (s.completeWrite e).settle
  | some (.read _ _) => .next s
  | some (.retirement _) => .next s
  | some .refresh => .next s
  | none => .next s

/-- A retirement write completes: the array holds the copied data, the retirement is no longer in hand (R131), and the
Hold Store acts on the slot (R113). -/
def State.completeRetirementWrite (r : Retirement) (s : State) : State :=
  { s.freeChannel with dram := s.dram.store r.cell (.full r.data), dcc.inHand := none }.completeRetirement r.slot

/-- RETIREMENT_COMPLETION (R113). -/
def execRetirementCompletion (s : State) : Host.Outcome State Fault Refusal :=
  match s.operation? with
  | some (.retirement r) => .next (s.completeRetirementWrite r).settle
  | some (.read _ _) => .next s
  | some (.write _) => .next s
  | some .refresh => .next s
  | none => .next s

/-- REFRESH_COMPLETION (R124). -/
def execRefreshCompletion (s : State) : Host.Outcome State Fault Refusal :=
  match s.operation? with
  | some .refresh => .next s.freeChannel.settle
  | some (.read _ _) => .next s
  | some (.write _) => .next s
  | some (.retirement _) => .next s
  | none => .next s

end Sys2Proof.Machine
end

