-- ==== Sys2Proof/Machine/ControlWrites.lean ====
section
/-! DEFINITION. The meanings of the nine control-window writes (R159). Each is the whole take of the request at the head
of the Request Queue, where that request is a control-window write that carries a word of the command's kind: the write
joins the write queue and all its words are decoded (log entry 1). -/

namespace Sys2Proof.Machine

/-- The words of staged settings: EL, W and SL; the refresh interval; ring geometry and ring settings (R160, R161). -/
def isSettingWord : ControlWord → List Byte → Bool
  | .epochSettings, _ => true
  | .storeSettings, _ => false
  | .refreshQuiet, _ => true
  | .alertLine _, _ => false
  | .softReset, _ => false
  | .ring _ j, _ => j != 6
  | .enable _, _ => false
  | .counterClear, _ => false
  | .flagClear _, _ => false
  | .plain, _ => false

/-- Device word 1. -/
def isStoreWord (c : ControlWord) (_ : List Byte) : Bool := c == .storeSettings

/-- Device word 2. -/
def isQuietWord (c : ControlWord) (_ : List Byte) : Bool := c == .refreshQuiet

/-- Device words 3..6. -/
def isAlertWord : ControlWord → List Byte → Bool
  | .epochSettings, _ => false
  | .storeSettings, _ => false
  | .refreshQuiet, _ => false
  | .alertLine _, _ => true
  | .softReset, _ => false
  | .ring _ _, _ => false
  | .enable _, _ => false
  | .counterClear, _ => false
  | .flagClear _, _ => false
  | .plain, _ => false

/-- An enable word with this value. -/
def isEnableWord (value : Nat) : ControlWord → List Byte → Bool
  | .epochSettings, _ => false
  | .storeSettings, _ => false
  | .refreshQuiet, _ => false
  | .alertLine _, _ => false
  | .softReset, _ => false
  | .ring _ _, _ => false
  | .enable _, w => leNat w == value
  | .counterClear, _ => false
  | .flagClear _, _ => false
  | .plain, _ => false

/-- A soft-reset word of 1. -/
def isSoftResetWord (c : ControlWord) (w : List Byte) : Bool := c == .softReset && leNat w == 1

/-- A counter-clear word of 1. -/
def isCounterClearWord (c : ControlWord) (w : List Byte) : Bool := c == .counterClear && leNat w == 1

/-- A flag-clear word. -/
def isFlagClearWord : ControlWord → List Byte → Bool
  | .epochSettings, _ => false
  | .storeSettings, _ => false
  | .refreshQuiet, _ => false
  | .alertLine _, _ => false
  | .softReset, _ => false
  | .ring _ _, _ => false
  | .enable _, _ => false
  | .counterClear, _ => false
  | .flagClear _, _ => true
  | .plain, _ => false

/-- SETTING_WRITE (R159, R160, R161). -/
def execSettingWrite (s : State) : Host.Outcome State Fault Refusal := .next (s.takeIf (s.headCarries isSettingWord))

/-- STORE_SETTINGS_WRITE (R99, R111). -/
def execStoreSettingsWrite (s : State) : Host.Outcome State Fault Refusal := .next (s.takeIf (s.headCarries isStoreWord))

/-- QUIET_DELAY_WRITE (R136). -/
def execQuietDelayWrite (s : State) : Host.Outcome State Fault Refusal := .next (s.takeIf (s.headCarries isQuietWord))

/-- ALERT_LINE_WRITE (R177). -/
def execAlertLineWrite (s : State) : Host.Outcome State Fault Refusal := .next (s.takeIf (s.headCarries isAlertWord))

/-- RING_ENABLE (R35 to R37). -/
def execRingEnable (s : State) : Host.Outcome State Fault Refusal := .next (s.takeIf (s.headCarries (isEnableWord 1)))

/-- RING_DISABLE (R35, R38). -/
def execRingDisable (s : State) : Host.Outcome State Fault Refusal := .next (s.takeIf (s.headCarries (isEnableWord 0)))

/-- SOFT_RESET (R165). -/
def execSoftReset (s : State) : Host.Outcome State Fault Refusal := .next (s.takeIf (s.headCarries isSoftResetWord))

/-- COUNTER_CLEAR (R163). -/
def execCounterClear (s : State) : Host.Outcome State Fault Refusal :=
  .next (s.takeIf (s.headCarries isCounterClearWord))

/-- FLAG_CLEAR (R164). -/
def execFlagClear (s : State) : Host.Outcome State Fault Refusal := .next (s.takeIf (s.headCarries isFlagClearWord))

end Sys2Proof.Machine
end

