-- ==== Sys2Proof/Machine/LinkEvents.lean ====
section
/-! DEFINITION. The meanings of LANE_LOCK, TRAINING_SUCCESS, TRAINING_FAILURE, LANE_LOCK_LOSS, LINK_RESET and
REQUEST_FRAME_ARRIVAL (R140 to R143). -/

namespace Sys2Proof.Machine

/-- LANE_LOCK (R140): the named receive lanes lock. -/
def execLaneLock (lanes : BitVec 8) (s : State) : Host.Outcome State Fault Refusal :=
  .next { s with clp.lanes := s.clp.lanes ||| lanes }.settle

/-- TRAINING_SUCCESS (R141): the link enters UP and owes 64 credits. -/
def execTrainingSuccess (s : State) : Host.Outcome State Fault Refusal :=
  .next (if s.clp.state = .training then s.linkUp.settle else s)

/-- TRAINING_FAILURE (R141): a new attempt begins. -/
def execTrainingFailure (s : State) : Host.Outcome State Fault Refusal :=
  .next (if s.clp.state = .training then { s with clp.attempt := s.clp.attempt + 1 } else s)

/-- LANE_LOCK_LOSS (R140): a receive lane loses lock. After the drop the channel may enter QUIET (log entry 18). -/
def execLaneLockLoss (lane : Fin 8) (s : State) : Host.Outcome State Fault Refusal :=
  .next { s with clp.lanes := clearLane s.clp.lanes lane }.linkDown.settle

/-- LINK_RESET (R140): no effect while the link is DOWN; otherwise the link goes to DOWN, and retrains at once if the
lanes stay locked. After the drop the channel may enter QUIET (log entry 18). -/
def execLinkReset (s : State) : Host.Outcome State Fault Refusal :=
  .next (if s.clp.state = .down then s else s.linkDown.settle)

/-- A frame that fails its check (R142): discarded, and one credit owed. -/
def State.failFrame (s : State) : State :=
  { s with clp.owed := min 64 (s.clp.owed + 1)
           counters.integrityFailures := bump s.counters.integrityFailures 1 }.raiseAll .linkFault

/-- A frame that meets a full Request Queue (R142): discarded, and no credit owed. -/
def State.overflowFrame (s : State) : State :=
  { s with counters.rqOverflows := bump s.counters.rqOverflows 1 }.raiseAll .linkFault

/-- An accepted request joins the tail of the Request Queue and reloads the quiet timer (R142, R136). -/
def State.acceptRequest (r : Request) (s : State) : State :=
  { s with rfe.rq := s.rfe.rq ++ [r], dcc.quietTimer := loadQuiet s.dcc.quietDelay }

/-- The tests of a request frame, in their order (R142). -/
def State.receiveFrame (frame : List Byte) (s : State) : State :=
  match decodeFrame frame with
  | none => s.failFrame
  | some r => if s.rfe.rq.length < 64 then s.acceptRequest r else s.overflowFrame

/-- REQUEST_FRAME_ARRIVAL (R142): frames are received in UP alone (R140). -/
def execRequestFrameArrival (frame : List Byte) (s : State) : Host.Outcome State Fault Refusal :=
  .next (if s.clp.state = .up then (s.receiveFrame frame).settle else s)

end Sys2Proof.Machine
end

