-- ==== Sys2Proof/Machine/Requests.lean ====
section
/-! DEFINITION. The meanings of the four takes, CELL_WRITE, WORD_WRITE, CELL_READ and WORD_READ (R144 to R149). -/

namespace Sys2Proof.Machine

/-- CELL_WRITE (R148). -/
def execCellWrite (s : State) : Host.Outcome State Fault Refusal := .next (s.takeIf (s.headIs Request.isCellWrite))

/-- WORD_WRITE (R148). -/
def execWordWrite (s : State) : Host.Outcome State Fault Refusal := .next (s.takeIf (s.headIs Request.isWordWrite))

/-- CELL_READ (R149). -/
def execCellRead (s : State) : Host.Outcome State Fault Refusal := .next (s.takeIf (s.headIs Request.isCellRead))

/-- WORD_READ (R149). -/
def execWordRead (s : State) : Host.Outcome State Fault Refusal := .next (s.takeIf (s.headIs Request.isWordRead))

end Sys2Proof.Machine
end

