-- ==== Sys2Proof/Machine/Resets.lean ====
section
/-! DEFINITION. The meanings of POWER_ON_RESET, RSTN_RISE and END_OF_INIT (R179, R135, R55). An event that the part's
state does not allow does not occur, and its command changes nothing (log entry 2). -/

namespace Sys2Proof.Machine

/-- The write that an operation in flight is making to the array, if it makes one. -/
def InFlight.write? (f : InFlight) : Option (Nat × WriteData) :=
  match f.op with
  | .read _ _ => none
  | .write e => some (e.cell, e.payload)
  | .retirement r => some (r.cell, .full r.data)
  | .refresh => none

/-- The array after a write in flight is cut off: its cell holds either its former bytes or the written bytes (R123, log
entry 4). -/
def Dram.cutOff (d : Dram) (f : Option InFlight) : Dram :=
  match f.bind InFlight.write? with
  | some w => if Config.cutWriteLands d.resets then d.store w.1 w.2 else d
  | none => d

/-- The array after a power-on reset (R123): kept through a fall of RSTN, lost when power is applied. -/
def Dram.powerOn (d : Dram) (f : Option InFlight) : ResetCause → Dram
  | .rstnFalls => { d.cutOff f with resets := d.resets + 1 }
  | .powerApplied => { mem := [], powerUps := d.powerUps + 1, resets := d.resets + 1 }

/-- POWER_ON_RESET (R179): every block takes its power-on values. CAP is 4 GiB again until the next sample: R179 keeps the
sampled value until the next power-on reset and gives none while one lasts (DESIGN CHOICE, log entry 19). -/
def execPowerOnReset (cause : ResetCause) (s : State) : Host.Outcome State Fault Refusal :=
  .next { State.reset with dram := s.dram.powerOn s.dcc.inFlight cause, pending := s.pending }

/-- The capacity that a level of CAPSEL selects: low 4 GiB, high 8 GiB (R179). -/
def capselCapacity (high : Bool) : Capacity := if high then .gib8 else .gib4

/-- RSTN_RISE (R179): CAPSEL is sampled, and the channel enters INIT. -/
def execRstnRise (capsel : Bool) (s : State) : Host.Outcome State Fault Refusal :=
  .next (if s.rstnLow then { s with rstnLow := false, capacity := capselCapacity capsel, dcc.state := .init } else s)

/-- END_OF_INIT (R135, R55): the channel enters RUN, and the epoch timer starts with the active EL. -/
def execEndOfInit (s : State) : Host.Outcome State Fault Refusal :=
  .next (if s.rstnLow = false ∧ s.dcc.state = .init then { s.enterRun with sje.timer := some s.sje.el }.settle else s)

end Sys2Proof.Machine
end

