-- ==== Sys2Proof/Machine/Sending.lean ====
section
/-! DEFINITION. The meanings of RESPONSE_SENT and CREDIT_FRAME_SENT (R151, R152, R143). -/

namespace Sys2Proof.Machine

/-- The entry of a sent response becomes FREE, and its tag leaves the outstanding set unless its status is TAG_REUSED
(R152). -/
def State.freeResponse (r : Response) (s : State) : State :=
  { s with
    clp.tx := .idle
    rfe.responses := s.rfe.responses.filter (fun x => x.id != r.id)
    rfe.tags := if r.status = .tagReused then s.rfe.tags else s.rfe.tags.filter (fun t => t != r.tag) }

/-- A response is sent (R152): its entry becomes FREE, and a valid claim acts on its slot (R108). -/
def State.sendResponse (r : Response) (s : State) : State :=
  match r.claim with
  | some slot => (s.freeResponse r).sendClaim slot
  | none => s.freeResponse r

/-- RESPONSE_SENT (R152): the last byte of the READ_DATA frame under way leaves the part. -/
def execResponseSent (s : State) : Host.Outcome State Fault Refusal :=
  match s.clp.tx with
  | .idle => .next s
  | .credit _ => .next s
  | .readData n _ =>
    match s.rfe.responses.find? (fun r => r.id == n) with
    | some r => .next (s.sendResponse r).settle
    | none => .next { s with clp.tx := .idle }.settle

/-- CREDIT_FRAME_SENT (R143): the transmitter falls free. -/
def execCreditFrameSent (s : State) : Host.Outcome State Fault Refusal :=
  match s.clp.tx with
  | .idle => .next s
  | .credit _ => .next { s with clp.tx := .idle }.settle
  | .readData _ _ => .next s

end Sys2Proof.Machine
end

