-- ==== Sys2Proof/Machine/Timers.lean ====
section
/-! DEFINITION. The meanings of EPOCH_EXPIRY, REFRESH_TIMER_EXPIRY, QUIET_TIMER_EXPIRY, WAKING_END and PULSE_END. A timer
that is stopped does not expire (log entry 2). -/

namespace Sys2Proof.Machine

/-- The epoch expiry (R53): the device settings are taken (R54, R59, R44), the epoch number moves on and the timer is
reloaded, and the Sojourn Estimator, the Fan-in Table (R46) and the Hold Store (R115) do their expiry work. R169 lets the
works of different blocks at one expiry fall on either side of a report take; here they are one step, so that every take
sees all of them or none: DESIGN CHOICE, log entry 17. -/
def State.expireEpoch (s : State) : State :=
  let now := s.sje.epoch + 1
  let el := clampEpochLength s.swu.stagedEl
  let sl := clampStallLimit s.swu.stagedSl
  let w := clampWindow s.swu.stagedW
  { s with
    sje := { epoch := now, timer := some el, el := el, sl := sl }
    fanInWindow := w
    rings := s.rings.map (Ring.expire now w sl)
    hst := s.hst.expire now }.raiseExpiryEvents s.rings

/-- EPOCH_EXPIRY (R53). -/
def execEpochExpiry (s : State) : Host.Outcome State Fault Refusal :=
  .next (if s.sje.timer.isSome then s.expireEpoch.settle else s)

/-- The refresh timer's expiry (R133). -/
def State.expireRefresh (s : State) : State :=
  if s.dcc.backlog < 8 then { s with dcc.backlog := s.dcc.backlog + 1 }.loadRefresh
  else { s with counters.refreshOverruns := bump s.counters.refreshOverruns 1 }.loadRefresh

/-- REFRESH_TIMER_EXPIRY (R133). -/
def execRefreshTimerExpiry (s : State) : Host.Outcome State Fault Refusal :=
  .next (if s.dcc.refreshTimer.isSome then s.expireRefresh.settle else s)

/-- Whether the quiet timer is running. -/
def QuietTimer.isRunning : QuietTimer → Bool
  | .stopped => false
  | .running _ => true
  | .expired => false

/-- QUIET_TIMER_EXPIRY (R136). -/
def execQuietTimerExpiry (s : State) : Host.Outcome State Fault Refusal :=
  .next (if s.dcc.quietTimer.isRunning then { s with dcc.quietTimer := .expired }.settle else s)

/-- WAKING_END (R135): the channel enters RUN, and the arbiter makes its first choice at once. -/
def execWakingEnd (s : State) : Host.Outcome State Fault Refusal :=
  .next (if s.dcc.state = .waking then s.enterRun.settle else s)

/-- PULSE_END (R176, R177) of one alert line. -/
def execPulseEnd (line : Fin 4) (s : State) : Host.Outcome State Fault Refusal :=
  .next { s with alerts := s.alerts.set line s.alerts[line].endPulse }

end Sys2Proof.Machine
end

