-- ==== Sys2Proof/Machine/Dispatch.lean ====
section
/-! DEFINITION. The command-to-meaning map: one arm for each row of spec/opcode_table.json. -/

namespace Sys2Proof.Machine

def exec (i : Instr) (s : State) : Host.Outcome State Fault Refusal :=
  match i with
  | .powerOnReset cause => Sys2Proof.Machine.execPowerOnReset cause s
  | .rstnRise capsel => Sys2Proof.Machine.execRstnRise capsel s
  | .endOfInit => Sys2Proof.Machine.execEndOfInit s
  | .laneLock lanes => Sys2Proof.Machine.execLaneLock lanes s
  | .trainingSuccess => Sys2Proof.Machine.execTrainingSuccess s
  | .trainingFailure => Sys2Proof.Machine.execTrainingFailure s
  | .laneLockLoss lane => Sys2Proof.Machine.execLaneLockLoss lane s
  | .linkReset => Sys2Proof.Machine.execLinkReset s
  | .requestFrameArrival frame => Sys2Proof.Machine.execRequestFrameArrival frame s
  | .cellWrite => Sys2Proof.Machine.execCellWrite s
  | .wordWrite => Sys2Proof.Machine.execWordWrite s
  | .cellRead => Sys2Proof.Machine.execCellRead s
  | .wordRead => Sys2Proof.Machine.execWordRead s
  | .settingWrite => Sys2Proof.Machine.execSettingWrite s
  | .storeSettingsWrite => Sys2Proof.Machine.execStoreSettingsWrite s
  | .quietDelayWrite => Sys2Proof.Machine.execQuietDelayWrite s
  | .alertLineWrite => Sys2Proof.Machine.execAlertLineWrite s
  | .ringEnable => Sys2Proof.Machine.execRingEnable s
  | .ringDisable => Sys2Proof.Machine.execRingDisable s
  | .softReset => Sys2Proof.Machine.execSoftReset s
  | .counterClear => Sys2Proof.Machine.execCounterClear s
  | .flagClear => Sys2Proof.Machine.execFlagClear s
  | .epochExpiry => Sys2Proof.Machine.execEpochExpiry s
  | .refreshTimerExpiry => Sys2Proof.Machine.execRefreshTimerExpiry s
  | .readCompletion => Sys2Proof.Machine.execReadCompletion s
  | .writeCompletion => Sys2Proof.Machine.execWriteCompletion s
  | .retirementCompletion => Sys2Proof.Machine.execRetirementCompletion s
  | .refreshCompletion => Sys2Proof.Machine.execRefreshCompletion s
  | .quietTimerExpiry => Sys2Proof.Machine.execQuietTimerExpiry s
  | .wakingEnd => Sys2Proof.Machine.execWakingEnd s
  | .responseSent => Sys2Proof.Machine.execResponseSent s
  | .creditFrameSent => Sys2Proof.Machine.execCreditFrameSent s
  | .pulseEnd line => Sys2Proof.Machine.execPulseEnd line s

end Sys2Proof.Machine
end

