-- ==== Sys2Proof/WellFormed.lean ====
section
/-! DEFINITION. Which commands the world outside the part can send: the checks on a command's operands. -/

namespace Sys2Proof

/-- The lengths of the four request frames (R178: CELL_WRITE, WORD_WRITE, CELL_READ, WORD_READ). -/
def requestFrameLengths : List Nat := [264, 17, 9, 10]

/-- A command is well formed when its operands are ones the event it names can have: a lane-lock event names at least
one lane, and a request frame has the length of one of the four request frames. -/
def Instr.wellFormed : Instr → Bool
  | .laneLock lanes => lanes != 0
  | .requestFrameArrival frame => requestFrameLengths.contains frame.length
  | .powerOnReset _ | .rstnRise _ | .endOfInit | .trainingSuccess | .trainingFailure | .laneLockLoss _
  | .linkReset | .cellWrite | .wordWrite | .cellRead | .wordRead | .settingWrite | .storeSettingsWrite
  | .quietDelayWrite | .alertLineWrite | .ringEnable | .ringDisable | .softReset | .counterClear | .flagClear
  | .epochExpiry | .refreshTimerExpiry | .readCompletion | .writeCompletion | .retirementCompletion
  | .refreshCompletion | .quietTimerExpiry | .wakingEnd | .responseSent | .creditFrameSent | .pulseEnd _ => true

end Sys2Proof
end

