-- ==== Sys2Proof/Safety.lean ====
section
/-! DEFINITION. What a safe run of the part is, in the terms the statements use: the invariants of the state, the shapes
of state that the statements about single commands speak of, and the fields of the report window. -/

namespace Sys2Proof.Machine

/-- A step that stops neither with a fault nor with a refusal. -/
def Completes (o : Host.Outcome State Fault Refusal) : Prop := ∃ t, o = .next t

/-! ### Rings -/

/-- What an OFF ring holds (R14, R18, R38, R41, R68, R77). -/
abbrev Ring.OffOk (r : Ring) : Prop :=
  r.state = .off →
    r.active = .zero ∧ r.fillPos = 0 ∧ r.drainPos = 0 ∧ r.occ = 0 ∧ r.reads = 0 ∧ r.records = [] ∧ r.senders = [] ∧
      r.drain = 0 ∧ r.ramp = 0 ∧ r.stall = 0 ∧ r.lastT = 0 ∧ r.credit = 0

/-- The ranges of an active ring's geometry and tracking state, and f = (d + Q) mod N for a ring that is not empty
(R14, R18, R29). -/
abbrev Ring.SpanOk (r : Ring) : Prop :=
  r.state ≠ .off →
    2 ≤ r.active.length ∧ r.active.length ≤ 65536 ∧ r.active.lead ≤ 255 ∧ r.fillPos < r.active.length ∧
      r.drainPos < r.active.length ∧ r.occ ≤ r.active.length ∧
      (0 < r.occ → r.fillPos = (r.drainPos + r.occ) % r.active.length) ∧ r.reads ≤ 4095

/-- The packet records of a ring: at most one per header position, each with its copies in range (R25, R30, R31). -/
abbrev Ring.RecordsOk (r : Ring) : Prop :=
  (r.records.map (fun x => x.pos)).Nodup ∧
    ∀ x ∈ r.records, x.pos < r.active.length ∧ 1 ≤ x.left ∧ x.left ≤ x.total ∧ x.total ≤ 15

/-- The Sender List of a ring: at most 16 entries, never two with the same signature (R41). -/
abbrev Ring.SendersOk (r : Ring) : Prop :=
  r.senders.length ≤ 16 ∧ (r.senders.map (fun e => e.signature)).Nodup ∧
    ∀ e ∈ r.senders, 1 ≤ e.packets ∧ e.packets ≤ 65535

/-- The ranges of a ring's estimate, its settings in force and its mark credit (R57, R61, R68, R77). -/
abbrev Ring.EstimateOk (r : Ring) : Prop :=
  r.drain ≤ 65520 ∧ r.ramp ≤ r.settings.ml ∧ r.settings.ml ≤ 3 ∧ r.stall ≤ 255 ∧ r.lastT ≤ 65535 ∧
    r.settings.tl < r.settings.th ∧ 1 ≤ r.settings.ps ∧ r.settings.ps ≤ 256 ∧ r.credit ≤ 255

/-- The ranges of a ring's settings in force that `Ring.EstimateOk` does not speak of, and of the staged settings that
R57 takes without a clamp from above (R57, R162). -/
abbrev Ring.SettingsOk (r : Ring) : Prop :=
  (r.settings.th ≤ 65535 ∧ 2 ≤ r.settings.ft ∧ r.settings.ft ≤ 17 ∧ r.settings.dw ≤ 7 ∧ r.settings.qf ≤ 65535 ∧
    r.settings.hh ≤ 65535 ∧ r.settings.quota ≤ 4096) ∧
  r.stagedSettings.th ≤ 65535 ∧ r.stagedSettings.qf ≤ 65535 ∧ r.stagedSettings.hh ≤ 65535

/-- The invariant of one ring. -/
abbrev Ring.Ok (r : Ring) : Prop :=
  r.OffOk ∧ r.SpanOk ∧ r.RecordsOk ∧ r.SendersOk ∧ r.EstimateOk ∧ r.SettingsOk

/-- Every ring keeps its invariant. -/
abbrev State.RingsOk (s : State) : Prop := ∀ k : Fin 64, (s.ring k).Ok

/-- Active regions lie below the service area and share no cell (R16, R36). -/
abbrev State.RegionsOk (s : State) : Prop :=
  (∀ k : Fin 64, (s.ring k).state ≠ .off → (s.ring k).active.stop ≤ s.capacity.cells - 128) ∧
    ∀ j k : Fin 64, j ≠ k → (s.ring j).state ≠ .off → (s.ring k).state ≠ .off →
      (s.ring j).active.overlaps (s.ring k).active = false

/-- The packet records in all ring lists plus the free pool number 4096 (R31), and an OFF ring lists none (R18). -/
abbrev State.PoolOk (s : State) : Prop :=
  s.poolFree + recordCount s.rings = 4096 ∧ ∀ k : Fin 64, (s.ring k).state = .off → (s.ring k).records = []

/-! ### The Hold Store and the retirement in hand -/

/-- The Hold Directory maps each cell index to at most one slot, slot numbers are distinct and below 2048, and remaining
reads are in range (R96, R97). -/
abbrev HoldStore.SlotsOk (h : HoldStore) : Prop :=
  (h.slots.map (fun x => x.cell)).Nodup ∧ (h.slots.map (fun x => x.num)).Nodup ∧
    ∀ x ∈ h.slots, x.num < 2048 ∧ x.remaining ≤ 15

/-- A slot that is not HELD is the one whose retirement is in hand, the retirement in hand has its slot, and a retirement
write in flight is the one in hand (R112, R130, R131). -/
abbrev State.RetirementOk (s : State) : Prop :=
  (∀ x ∈ s.hst.slots, x.state ≠ .held → (s.dcc.inHand.map (fun r => r.slot)) = some x.num) ∧
    (∀ r ∈ s.dcc.inHand, ∃ x ∈ s.hst.slots, x.num = r.slot ∧ x.cell = r.cell ∧ x.state ≠ .held) ∧
    ∀ f ∈ s.dcc.inFlight, ∀ r, f.op = .retirement r → s.dcc.inHand = some r

/-- A claim is on a slot that is not FREE (R109). -/
abbrev State.ClaimsOk (s : State) : Prop :=
  ∀ r ∈ s.rfe.responses, ∀ n, r.claim = some n → ∃ x ∈ s.hst.slots, x.num = n

/-- The invariant of the Hold Store. -/
def State.StoreOk (s : State) : Prop := s.hst.SlotsOk ∧ s.RetirementOk ∧ s.ClaimsOk

/-- The admitted counters of all rings together. -/
def State.admittedSum (s : State) : Nat := (s.rings.toList.map (fun r => r.counters.admitted)).sum

/-- The balance of the store's counters (R121). -/
def State.BalanceOk (s : State) : Prop := s.admittedSum = s.counters.elided + s.counters.retired + s.hst.fill

/-- The commands that take the head of the Request Queue where it is of their kind (R144, log entry 1). -/
abbrev TakesHead (c : Instr) : Prop :=
  c ∈ [Instr.cellWrite, .wordWrite, .cellRead, .wordRead, .settingWrite, .storeSettingsWrite, .quietDelayWrite,
    .alertLineWrite, .ringEnable, .ringDisable, .softReset, .counterClear, .flagClear]

/-- No counter of the balance has saturated (R121, R173). -/
def State.Unsaturated (s : State) : Prop :=
  s.counters.elided < 0xFFFFFFFF ∧ s.counters.retired < 0xFFFFFFFF ∧
    ∀ k : Fin 64, (s.ring k).counters.admitted < 0xFFFFFFFF

/-! ### Requests, responses and queues -/

/-- The outstanding tags are those of the entries whose status is not TAG_REUSED, and no two are the same (R146). -/
abbrev State.TagsOk (s : State) : Prop :=
  s.rfe.tags = (s.rfe.responses.filter (fun r => r.status != .tagReused)).map (fun r => r.tag) ∧ s.rfe.tags.Nodup

/-- Response entries have distinct numbers below 64, and the ready order lists the READY ones once each (R149, R150). -/
abbrev State.EntriesOk (s : State) : Prop :=
  (s.rfe.responses.map (fun r => r.id)).Nodup ∧ (∀ r ∈ s.rfe.responses, r.id < 64) ∧ s.rfe.ready.Nodup ∧
    (∀ n ∈ s.rfe.ready, ∃ r ∈ s.rfe.responses, r.id = n ∧ r.state = .ready) ∧
    ∀ r ∈ s.rfe.responses, r.state = .ready → r.id ∈ s.rfe.ready

/-- The response entry that the operation in flight fills, if it is a read whose entry still stands (R132, R137). -/
def InFlight.target? (f : InFlight) : Option Nat :=
  match f.op with
  | .read e false => some e.entry
  | .read _ true => none
  | .write _ => none
  | .retirement _ => none
  | .refresh => none

/-- The response entries that the queued reads and the read in flight fill. -/
def Channel.targets (c : Channel) : List Nat :=
  c.readQ.map (fun e => e.entry) ++ (c.inFlight.bind InFlight.target?).toList

/-- Every WAITING entry is filled by exactly one read, queued or in flight, and every such read has its WAITING entry
(R125, R149). -/
abbrev State.ReadsOk (s : State) : Prop :=
  s.dcc.targets.Nodup ∧
    (∀ n ∈ s.dcc.targets, ∃ r ∈ s.rfe.responses, r.id = n ∧ r.state = .waiting) ∧
    ∀ r ∈ s.rfe.responses, r.state = .waiting → r.id ∈ s.dcc.targets

/-- The entry that the READ_DATA frame under way carries. -/
def Transmitter.entry? : Transmitter → Option Nat
  | .idle => none
  | .credit _ => none
  | .readData n _ => some n

/-- The SENDING entry is the one whose READ_DATA frame is under way (R151). -/
abbrev State.SendingOk (s : State) : Prop :=
  (∀ n ∈ s.clp.tx.entry?, ∃ r ∈ s.rfe.responses, r.id = n ∧ r.state = .sending) ∧
    ∀ r ∈ s.rfe.responses, r.state = .sending → s.clp.tx.entry? = some r.id

/-- Both DRAM queues stand in take order, and no two of their entries have the same place in it (R125, R126). -/
abbrev Channel.OrderOk (c : Channel) : Prop :=
  c.readQ.Pairwise (fun a b => a.seq < b.seq) ∧ c.writeQ.Pairwise (fun a b => a.seq < b.seq) ∧
    (∀ e ∈ c.readQ, e.seq < c.nextSeq) ∧ (∀ w ∈ c.writeQ, w.seq < c.nextSeq) ∧
    ∀ e ∈ c.readQ, ∀ w ∈ c.writeQ, e.seq ≠ w.seq

/-- The invariant of the requests that have been taken and not yet answered. -/
def State.RequestsOk (s : State) : Prop :=
  s.TagsOk ∧ s.EntriesOk ∧ s.ReadsOk ∧ s.SendingOk ∧ s.dcc.OrderOk

/-- The limits of the queues and counts of the request path (R125, R126, R133, R143, R144). -/
abbrev State.QueuesOk (s : State) : Prop :=
  s.rfe.rq.length ≤ 64 ∧ s.dcc.readQ.length ≤ 32 ∧ s.dcc.writeQ.length ≤ 32 ∧ s.clp.owed ≤ 64 ∧ s.dcc.backlog ≤ 8

/-- Outside UP the Request Queue and the Response Buffer are empty, no credit is owed and nothing is sent (R140, R141,
R154). -/
abbrev State.LinkOk (s : State) : Prop :=
  s.clp.state ≠ .up → s.rfe = .reset ∧ s.clp.tx = .idle ∧ s.clp.owed = 0

/-- A power-on reset holds the channel in INIT; in INIT the channel is at its power-on values, the store is empty, every
ring is OFF, the epoch timer is stopped and the link is DOWN (R55, R135, R138, R140). -/
abbrev State.InitOk (s : State) : Prop :=
  (s.rstnLow = true → s.dcc.state = .init) ∧
    (s.dcc.state = .init →
      s.dcc = .reset ∧ s.hst.slots = [] ∧ s.clp.state = .down ∧ s.rfe = .reset ∧ s.sje.timer = none ∧
        ∀ k : Fin 64, (s.ring k).state = .off)

/-! ### Operand ranges and data sizes -/

/-- A request names a cell below 2^26 and a word below 32, and carries the bytes of its kind (R142, R178). -/
def Request.InRange : Request → Prop
  | .cellWrite cell data => cell < 2 ^ 26 ∧ data.length = 256
  | .wordWrite cell w data => cell < 2 ^ 26 ∧ w < 32 ∧ data.length = 8
  | .cellRead cell _ => cell < 2 ^ 26
  | .wordRead cell w _ => cell < 2 ^ 26 ∧ w < 32

/-- A queued write carries 256 bytes, or the 8 bytes of a word below 32 (R126). -/
def WriteData.InRange : WriteData → Prop
  | .full data => data.length = 256
  | .partialWord w data => w < 32 ∧ data.length = 8

/-- A read asks for a cell or for a word below 32 (R125). -/
def Extent.InRange : Extent → Prop
  | .cell => True
  | .word w => w < 32

/-- The sizes of all data under way (R96, R126, R130, R142, R149): requests, slots, queued writes and retirements carry
the bytes of their kind, and an entry that is not WAITING holds the bytes of its extent. -/
def State.SizesOk (s : State) : Prop :=
  (∀ r ∈ s.rfe.rq, r.InRange) ∧ (∀ x ∈ s.hst.slots, x.data.length = 256) ∧
    (∀ w ∈ s.dcc.writeQ, w.payload.InRange) ∧ (∀ r ∈ s.dcc.inHand, r.data.length = 256) ∧
    (∀ r ∈ s.rfe.responses, r.extent.InRange ∧ (r.state ≠ .waiting → r.data.length = r.extent.size)) ∧
    (∀ e ∈ s.dcc.readQ, ∀ r ∈ s.rfe.responses, r.id = e.entry → r.extent = e.extent) ∧
    ∀ f ∈ s.dcc.inFlight, ∀ e, f.op = .read e false → ∀ r ∈ s.rfe.responses, r.id = e.entry → r.extent = e.extent

/-! ### Settings -/

/-- The device settings in force lie in their ranges (R44, R54, R59, R99, R133, R136). -/
abbrev State.SettingsOk (s : State) : Prop :=
  2 ≤ s.sje.el ∧ s.sje.el ≤ 1000 ∧ 1 ≤ s.sje.sl ∧ s.sje.sl ≤ 255 ∧ 1 ≤ s.fanInWindow ∧ s.fanInWindow ≤ 255 ∧
    1 ≤ s.hst.lowMark ∧ s.hst.lowMark ≤ 2048 ∧ s.hst.highMark ≤ 2048 ∧ 1 ≤ s.hst.ageLimit ∧ s.hst.ageLimit ≤ 255 ∧
    s.dcc.quietDelay ≤ 255 ∧ 10 ≤ s.dcc.refreshInterval ∧ s.dcc.refreshInterval ≤ 100

/-! ### What the statements about single commands speak of -/

/-- What the choices that follow an event by themselves (`State.settle`) leave as the event made it: everything but the
state of the link, of the channel and its queues, of the transmitter, of the response entries and of the slots. -/
def State.SettleKeeps (u t : State) : Prop :=
  t.rstnLow = u.rstnLow ∧ t.capacity = u.capacity ∧ t.rings = u.rings ∧ t.poolFree = u.poolFree ∧ t.sje = u.sje ∧
    t.fanInWindow = u.fanInWindow ∧ t.swu = u.swu ∧ t.dram = u.dram ∧ t.alerts = u.alerts ∧ t.counters = u.counters ∧
    t.pending = u.pending ∧ t.rfe.rq = u.rfe.rq ∧ t.rfe.tags = u.rfe.tags ∧ t.clp.lanes = u.clp.lanes ∧
    t.dcc.nextSeq = u.dcc.nextSeq ∧ t.dcc.quietDelay = u.dcc.quietDelay ∧ t.dcc.quietTimer = u.dcc.quietTimer ∧
    t.dcc.refreshInterval = u.dcc.refreshInterval ∧ t.hst.flush = u.hst.flush ∧
    t.hst.holdEnable = u.hst.holdEnable ∧ t.hst.lowMark = u.hst.lowMark ∧ t.hst.highMark = u.hst.highMark ∧
    t.hst.ageLimit = u.hst.ageLimit ∧
    t.hst.slots.map (fun x => { x with state := .held }) = u.hst.slots.map (fun x => { x with state := .held }) ∧
    t.rfe.responses.map (fun r => { r with state := .ready }) = u.rfe.responses.map (fun r => { r with state := .ready })

/-- The head leaves the Request Queue, and one credit is owed for it (R143, R144). -/
def State.afterHead (rest : List Request) (s : State) : State :=
  { s with rfe.rq := rest, clp.owed := min 64 (s.clp.owed + 1) }

/-- A write has left the Request Queue and joined the write queue at its tail (R126, R148). -/
def State.queuedWrite (rest : List Request) (cell : Nat) (w : WriteData) (s : State) : State :=
  { s with
    rfe.rq := rest
    clp.owed := min 64 (s.clp.owed + 1)
    dcc.writeQ := s.dcc.writeQ ++ [{ cell := cell, payload := w, seq := s.dcc.nextSeq }]
    dcc.nextSeq := s.dcc.nextSeq + 1 }

/-- A read of DRAM has left the Request Queue with entry `id` WAITING for it (R125, R149). -/
def State.queuedRead (rest : List Request) (cell id : Nat) (tag : Tag) (x : Extent) (s : State) : State :=
  { s with
    rfe.rq := rest
    rfe.responses := s.rfe.responses ++
      [{ id := id, state := .waiting, tag := tag, extent := x, status := .ok, data := [], decision := .none,
         header := none, claim := none }]
    rfe.tags := s.rfe.tags ++ [tag]
    clp.owed := min 64 (s.clp.owed + 1)
    dcc.readQ := s.dcc.readQ ++ [{ cell := cell, extent := x, entry := id, boost := false, seq := s.dcc.nextSeq }]
    dcc.nextSeq := s.dcc.nextSeq + 1 }

/-- A read has left the Request Queue with entry `id` READY for it (R149, R150). -/
def State.readyRead (rest : List Request) (r : Response) (s : State) : State :=
  { s with
    rfe.rq := rest
    rfe.responses := s.rfe.responses ++ [r]
    rfe.ready := s.rfe.ready ++ [r.id]
    rfe.tags := if r.status = .tagReused then s.rfe.tags else s.rfe.tags ++ [r.tag]
    clp.owed := min 64 (s.clp.owed + 1) }

/-- What every take of a request outside the control window leaves as it was. -/
def State.TakeKeeps (rest : List Request) (s u : State) : Prop :=
  u.rstnLow = s.rstnLow ∧ u.capacity = s.capacity ∧ u.sje = s.sje ∧ u.fanInWindow = s.fanInWindow ∧ u.swu = s.swu ∧
    u.dram = s.dram ∧ u.pending = s.pending ∧ u.rfe.rq = rest ∧
    u.clp = { s.clp with owed := min 64 (s.clp.owed + 1) } ∧
    u.dcc = { s.dcc with readQ := u.dcc.readQ, writeQ := u.dcc.writeQ, nextSeq := u.dcc.nextSeq } ∧
    u.hst = { s.hst with slots := u.hst.slots }

/-- Q after the tracking of a CELL_WRITE at position `p`, case by case as R20 lists them. -/
def Ring.occAfter (r : Ring) (p : Nat) : Nat :=
  let n := r.active.length
  let away := (p + n - r.drainPos) % n
  if r.occ = 0 then 1
  else if p = r.fillPos then (if r.occ < n then r.occ + 1 else r.occ)
  else if away < r.occ then r.occ
  else away + 1

/-- The conditions of R100 on a CELL_WRITE of an unheld cell at position `p` of ring `k`, with T from Q after the write's
own tracking. -/
abbrev State.WouldAdmit (s : State) (k : Fin 64) (p : Nat) (data : List Byte) : Prop :=
  s.hst.holdEnable = true ∧ (s.ring k).settings.holdEnable = true ∧ (s.ring k).state ≠ .stalled ∧
    1 ≤ (byteAt data 1).toNat % 16 ∧ sojourn ((s.ring k).occAfter p) (s.ring k).drain < (s.ring k).settings.hh ∧
    (∃ n, n < 2048 ∧ ∀ x ∈ s.hst.slots, x.num ≠ n) ∧ s.hst.flush = false

/-- The head of the Request Queue is a CELL_WRITE at position `p` of active ring `k`, and what it needs is there: its cell
is held, or it would be admitted, or a write-queue entry is free (R144). -/
def State.HeadWritesPosition (s : State) (cell : Nat) (data : List Byte) (rest : List Request) (k : Fin 64) (p : Nat) :
    Prop :=
  s.rfe.rq = .cellWrite cell data :: rest ∧ s.cellClass cell = .buffer ∧ s.ringClass cell = .position k p ∧
    (s.hst.lookup? cell ≠ none ∨ s.WouldAdmit k p data ∨ s.dcc.writeQ.length < 32)

/-- The head of the Request Queue is a CELL_READ, with a tag that is not outstanding, at position `p` of active ring
`k`, and what it needs is there: a response entry, and for a cell that is not held a read-queue entry (R144). -/
def State.HeadReadsPosition (s : State) (cell : Nat) (tag : Tag) (rest : List Request) (k : Fin 64) (p : Nat) : Prop :=
  s.rfe.rq = .cellRead cell tag :: rest ∧ s.cellClass cell = .buffer ∧ s.ringClass cell = .position k p ∧
    tag ∉ s.rfe.tags ∧ s.rfe.responses.length < 64 ∧ (s.hst.lookup? cell = none → s.dcc.readQ.length < 32)

/-- Fill position, drain position, occupancy and epoch read count (R18). -/
def Ring.track (r : Ring) : Nat × Nat × Nat × Nat := (r.fillPos, r.drainPos, r.occ, r.reads)

/-- The counters of the cell write cases (R20): cells in, overruns, rewrites, resyncs. -/
def RingCounters.writes (c : RingCounters) : Nat × Nat × Nat × Nat := (c.cellsIn, c.overruns, c.rewrites, c.resyncs)

/-- The counters of the cell read cases (R26): cells out, skipped cells, stray reads. -/
def RingCounters.readCases (c : RingCounters) : Nat × Nat × Nat := (c.cellsOut, c.skippedCells, c.strayReads)

/-- The counters of the Mark Unit (R87): marked, CE already, unmarkable, exempt. -/
def RingCounters.marks (c : RingCounters) : Nat × Nat × Nat × Nat := (c.marked, c.ceAlready, c.unmarkable, c.exempt)

/-- What the Sojourn Estimator keeps of a ring (R68). -/
def Ring.estimate (r : Ring) : RingState × Nat × Nat × Nat × Nat × Settings :=
  (r.state, r.drain, r.ramp, r.stall, r.lastT, r.settings)

/-- The conditions for entry into QUIET that R136 lists, but for the channel's being in RUN. -/
abbrev State.QuietConditions (s : State) : Prop :=
  s.dcc.quietDelay ≠ 0 ∧ s.dcc.quietTimer = .expired ∧ s.rfe.rq = [] ∧ s.dcc.readQ = [] ∧ s.dcc.writeQ = [] ∧
    s.dcc.inFlight = none ∧ s.hst.slots = [] ∧ s.dcc.backlog = 0

/-- DRAM work that brings a QUIET channel to WAKING (R136): a queued read or write, or a HELD slot, without which the
store's urgency is NONE. -/
abbrev State.HasDramWork (s : State) : Prop :=
  s.dcc.readQ ≠ [] ∨ s.dcc.writeQ ≠ [] ∨ ∃ x ∈ s.hst.slots, x.state = .held

/-- An access to a cell has begun (R123, R124): its bank has its row open, and the operation is in flight, 6 ns long for a
row hit and 20 ns for a row change. -/
def Channel.accessing (c : Channel) (op : Operation) (cell : Nat) : Channel :=
  { c with
    banks := c.banks.set (bankOf cell) (some (cell / 128))
    inFlight := some { op := op, duration := if c.banks[bankOf cell] = some (cell / 128) then 6 else 20 } }

/-! ### The report window, field by field

The tables of 11_layouts_and_signals.md, each field as its first byte, its number of bytes and its value. Encodings are
places in the table's own list of names. -/

/-- The bytes show the fields, little-endian; a field shows the low bytes of its value. -/
def Shows (bytes : List Byte) (fields : List (Nat × Nat × Nat)) : Prop :=
  ∀ f ∈ fields, leField bytes f.1 f.2.1 = f.2.2 % 256 ^ f.2.1

/-- Fields of one width that follow one another. -/
def fieldRow (first width : Nat) (values : List Nat) : List (Nat × Nat × Nat) :=
  values.zipIdx.map (fun x => (first + width * x.2, width, x.1))

/-- The field of one bit. -/
def flagField (b : Bool) : Nat := if b = true then 1 else 0

/-- The fields of the device report (R170), the unlisted bytes among them as zero. -/
def State.deviceFields (s : State) : List (Nat × Nat × Nat) :=
  let levels : List Urgency := [.none, .may, .need, .must]
  let held := s.hst.slots.filter (fun x => x.state = .held)
  let c := s.counters
  [(0, 1, [Capacity.gib4, .gib8].idxOf s.capacity), (1, 1, flagField s.swu.softReset + 2 * flagField s.hst.flush)] ++
    fieldRow 2 2 [s.sje.epoch.toNat, s.sje.el, s.sje.sl, s.fanInWindow, s.poolFree, s.hst.slots.length] ++
    [(14, 1, levels.idxOf s.urgency),
      (15, 1, (held.head?.map (fun x => (s.sje.epoch - x.admitted).toNat)).getD 0)] ++
    fieldRow 16 1 [flagField s.hst.holdEnable, s.hst.ageLimit] ++
    fieldRow 18 2 [s.hst.lowMark, max s.hst.highMark s.hst.lowMark] ++
    fieldRow 22 1 [[ChannelState.init, .run, .quiet, .waking].idxOf s.dcc.state, s.dcc.backlog, s.dcc.readQ.length,
      s.dcc.writeQ.length, if s.dcc.inHand = none then 0 else levels.idxOf s.retirementRank, s.dcc.quietDelay] ++
    [(28, 2, s.dcc.refreshInterval)] ++
    fieldRow 30 1 [[LinkState.down, .training, .up].idxOf s.clp.state, s.rfe.rq.length, s.rfe.responses.length,
      s.clp.owed] ++
    [(34, 6, 0)] ++
    (List.finRange 4).flatMap (fun n =>
      let l := s.alerts[n]
      fieldRow (40 + 8 * n.val) 1 [[AlertMode.level, .inverted, .pulseHigh, .pulseLow].idxOf l.mode,
        [PulseWidth.us1, .us10, .us100, .ms1].idxOf l.width, l.mask.toNat, l.flags.toNat,
        flagField l.driven + 2 * flagField l.pulse.isSome, 0, 0, 0]) ++
    fieldRow 72 4 [c.hits, c.misses, c.elided, c.retired, c.overwrites, c.refreshOverruns, c.linkDrops, c.discarded,
      c.integrityFailures, c.rqOverflows, c.tagReuses, c.rangeErrors, c.evictions] ++
    [(124, 132, 0)]

/-- The fields of the report of ring `k` (R171), its unlisted byte among them as zero. -/
def State.ringFields (s : State) (k : Fin 64) : List (Nat × Nat × Nat) :=
  let r := s.ring k
  let g := r.settings
  let c := r.counters
  fieldRow 0 1 [[RingState.off, .clear, .congested, .incast, .stalled].idxOf r.state, r.ramp, r.stall,
      (r.senders.filter (fun e => (s.sje.epoch - e.lastSeen).toNat ≤ s.fanInWindow)).length, r.senders.length,
      [Direction.up, .down].idxOf r.active.direction + 2 * [Direction.up, .down].idxOf r.staged.direction +
        4 * [Policy.spend, .carry].idxOf g.policy + 8 * flagField g.holdEnable + 16 * g.dw,
      r.credit, g.alertGroup.val + 16 * g.ml] ++
    [(8, 4, r.active.base), (12, 4, r.active.length), (16, 2, r.active.lead), (18, 4, r.staged.base),
      (22, 4, r.staged.length), (26, 2, r.staged.lead), (28, 2, r.fillPos), (30, 2, r.drainPos), (32, 4, r.occ)] ++
    fieldRow 36 2 [r.reads, r.records.length, (r.records.head?.map (fun x => x.pos)).getD 0,
      (r.records.head?.map (fun x => x.arrival.toNat)).getD 0, r.drain, r.lastT, g.tl, g.th, g.ps, g.qf, g.hh, g.quota,
      (s.hst.slots.filter (fun x => x.ring = k)).length] ++
    fieldRow 62 1 [g.ft, 0] ++
    fieldRow 64 4 [c.cellsIn, c.cellsOut, c.untracked, c.resyncs, c.overruns, c.rewrites, c.skippedCells,
      c.skippedUnread, c.lostRecords, c.strayReads, c.marked, c.ceAlready, c.unmarkable, c.exempt, c.admitted,
      c.bypassed]

/-- The fields of the Sender List of ring `k` (R51): 16 slots of 4 bytes, those past the list's end zero. -/
def State.senderFields (s : State) (k : Fin 64) : List (Nat × Nat × Nat) :=
  (List.range 16).flatMap (fun i =>
    match (s.ring k).senders[i]? with
    | some e => [(4 * i, 2, e.signature.toNat), (4 * i + 2, 1, (s.sje.epoch - e.lastSeen).toNat),
        (4 * i + 3, 1, min 255 e.packets)]
    | none => [(4 * i, 4, 0)])

end Sys2Proof.Machine
end

