-- ==== Sys2Proof/Certificates/Slice0/Obligations.lean ====
section
/-! DEFINITION. The statements for the provers. A statement about a command gives the state its event makes, and
`State.settle` then stands for what every event brings with it by itself: the choices of the link, the channel and the
transmitter, which `EventsSettle`, `ArbiterWalksTheRanks`, `RetirementTakesTheOldestHeldSlot` and
`TransmitterChoosesTheNextFrame` speak of. -/

open Sys2Proof Sys2Proof.Machine

/-! ### Steps, resets and the link -/

/-- A step takes the command at the front of the queue and runs it on the state with the queue's rest. The queue is the
model's own (log entry 5). -/
def Obligations.StepRunsFrontCommand : Prop :=
  ∀ (c : Instr) (rest : List Instr) (s : State), step { s with pending := c :: rest } = exec c { s with pending := rest }

/-- R179 with the reset tables of the chapters: POWER_ON_RESET gives every block its power-on values and drives every
alert line low; a fall of RSTN keeps the array but for a write in flight (R123), whose fate is open (log entry 4).
RSTN_RISE then samples CAPSEL. Every counter is 0. The take order count and the queue of commands are the model's own (log
entries 5, 16). -/
def Obligations.PowerOnResetAndItsEnd : Prop :=
  (∀ (cause : ResetCause) (s : State), ∃ t : State, exec (.powerOnReset cause) s = .next t ∧ t.rstnLow = true ∧
    t.clp.state = .down ∧ t.clp.tx = .idle ∧ t.clp.owed = 0 ∧
    t.rfe = { rq := [], responses := [], ready := [], tags := [] } ∧
    (∀ k : Fin 64, t.ring k =
      { state := .off, active := .zero, staged := .zero, fillPos := 0, drainPos := 0, occ := 0, reads := 0,
        records := [], senders := [], drain := 0, ramp := 0, stall := 0, lastT := 0,
        settings := { tl := 64, th := 320, ps := 64, ft := 6, ml := 1, dw := 3, qf := 32, hh := 32, policy := .spend,
                      holdEnable := true, quota := 256, alertGroup := 0 },
        stagedSettings := { tl := 64, th := 320, ps := 64, ft := 6, ml := 1, dw := 3, qf := 32, hh := 32, policy := 0,
                            holdEnable := 1, quota := 256, alertGroup := 0 },
        credit := 0, counters := .zero }) ∧
    t.poolFree = 4096 ∧ t.sje = { epoch := 0, timer := none, el := 20, sl := 4 } ∧ t.fanInWindow = 8 ∧
    t.swu = { stagedEl := 20, stagedW := 8, stagedSl := 4, stagedRefresh := 39, softReset := false } ∧
    t.hst = { slots := [], flush := false, holdEnable := false, lowMark := 1024, highMark := 1792, ageLimit := 50 } ∧
    t.dcc = { state := .init, readQ := [], writeQ := [], nextSeq := 0, inHand := none, inFlight := none,
              banks := Vector.replicate 16 none, backlog := 0, refreshTimer := none, refreshInterval := 39,
              quietDelay := 0, quietTimer := .stopped } ∧
    (∀ l : Fin 4, t.alerts[l] = { mode := .level, width := .us1, mask := 0, flags := 0, pulse := none } ∧
      t.alerts[l].driven = false) ∧
    t.counters = .zero ∧ t.pending = s.pending ∧
    (cause = .rstnFalls → t.dram.mem = s.dram.mem ∨
      ∃ w, s.dcc.inFlight.bind InFlight.write? = some w ∧ t.dram.mem = (s.dram.store w.1 w.2).mem)) ∧
  (∀ (capsel : Bool) (s : State), s.rstnLow = true → exec (.rstnRise capsel) s =
    .next { s with rstnLow := false, capacity := if capsel then .gib8 else .gib4, dcc.state := .init }) ∧
  Capacity.cells .gib4 = 16777216 ∧ Capacity.cells .gib8 = 33554432 ∧
  RingCounters.zero =
    { cellsIn := 0, cellsOut := 0, untracked := 0, resyncs := 0, overruns := 0, rewrites := 0, skippedCells := 0,
      skippedUnread := 0, lostRecords := 0, strayReads := 0, marked := 0, ceAlready := 0, unmarkable := 0, exempt := 0,
      admitted := 0, bypassed := 0 } ∧
  DeviceCounters.zero =
    { hits := 0, misses := 0, elided := 0, retired := 0, overwrites := 0, refreshOverruns := 0, linkDrops := 0,
      discarded := 0, integrityFailures := 0, rqOverflows := 0, tagReuses := 0, rangeErrors := 0, evictions := 0 }

/-- R135, R55, R133, R140: at the end of INIT the channel enters RUN with every row closed and the backlog 0, both timers
are loaded, and the link starts training if all eight lanes are locked (the number of the attempt is the model's own, log
entry 15). At the end of WAKING the channel enters RUN with the backlog 0, every row closed and the refresh timer loaded
with the staged interval, and the arbiter makes its choice at once. -/
def Obligations.InitAndWakingEndInRun : Prop :=
  ∀ s : State,
    let interval := max 10 (min 100 s.swu.stagedRefresh)
    (s.rstnLow = false → s.dcc.state = .init → s.InitOk →
      exec .endOfInit s = .next
        { s with
          dcc := { Channel.reset with state := .run, refreshInterval := interval, refreshTimer := some interval }
          sje.timer := some s.sje.el
          clp := if s.clp.lanes = 0xFF then { s.clp with state := .training, attempt := 1 } else s.clp }) ∧
    (s.dcc.state = .waking →
      exec .wakingEnd s = .next (State.settle
        { s with dcc := { s.dcc with state := .run, banks := Vector.replicate 16 none, backlog := 0,
                                     refreshInterval := interval, refreshTimer := some interval } }))

/-- R140: the named lanes lock, and what settling brings follows (`EventsSettle`): from DOWN, once the channel has left INIT
and all eight lanes are locked, the link enters TRAINING and its first attempt begins. Nothing else is the event's own.
That lanes locked in INIT or while RSTN is low are remembered is the model's reading (log entry 12), and the number of the
attempt is the model's own (log entry 15). -/
def Obligations.LaneLockStartsTraining : Prop :=
  ∀ (lanes : BitVec 8) (s : State),
    let locked : State := { s with clp.lanes := s.clp.lanes ||| lanes }
    let t := locked.settle
    exec (.laneLock lanes) s = .next t ∧ locked.SettleKeeps t ∧
    (t.clp.state, t.clp.attempt) =
      if s.clp.state = .down ∧ s.dcc.state ≠ .init ∧ s.clp.lanes ||| lanes = 0xFF then (.training, 1)
      else (s.clp.state, s.clp.attempt)

/-- R141, R143: a success takes the link to UP, where 64 credits are owed and leave at once as the first CREDIT frame; a
failure begins the next attempt. The number of the attempt, 0 outside TRAINING and one more at a failure, is the model's
own (log entry 15). -/
def Obligations.TrainingEndsInUpOrANewAttempt : Prop :=
  ∀ s : State, s.clp.state = .training →
    (s.LinkOk → ∃ t : State, exec .trainingSuccess s = .next t ∧ s.SettleKeeps t ∧ t.clp.state = .up ∧ t.clp.attempt = 0 ∧
      t.clp.tx = .credit (creditFrame 64) ∧ t.clp.owed = 0 ∧ t.clp.lastWasCredit = true ∧ t.rfe = .reset) ∧
    exec .trainingFailure s = .next { s with clp.attempt := s.clp.attempt + 1 }

/-- R140, R154, R137: a link-reset frame, and the loss of a lane, take the link from UP to DOWN with a link drop (the
queues of requests, responses and reads emptied, a read in flight left without its entry, two counters raised and
LINK_FAULT flagged on every line), and from TRAINING without one. A link-reset frame has no effect in DOWN. That the
attempt's number is 0 outside TRAINING is the model's own (log entry 15). Settling follows the drop; that a drop which
empties the Request Queue, every other quiet condition met, lets the channel enter QUIET is the model's choice (log entry
18). -/
def Obligations.LaneLossAndLinkResetLeaveTheLink : Prop :=
  (∀ f : InFlight, f.dropRead = { f with op := match f.op with
    | .read e _ => .read e true
    | op => op }) ∧
  ∀ (lane : Fin 8) (s : State) (c : Instr) (lanes : BitVec 8),
    (c = .linkReset ∧ lanes = s.clp.lanes ∨
      c = .laneLockLoss lane ∧ lanes = s.clp.lanes &&& ~~~(1#8 <<< lane.val)) →
    (s.clp.state = .up → exec c s = .next (State.settle
      { s with
        clp := { s.clp with lanes := lanes, state := .down, attempt := 0, owed := 0, tx := .idle }
        rfe := { rq := [], responses := [], ready := [], tags := [] }
        dcc.readQ := []
        dcc.inFlight := s.dcc.inFlight.map InFlight.dropRead
        counters.discarded := bump s.counters.discarded s.rfe.rq.length
        counters.linkDrops := bump s.counters.linkDrops 1
        alerts := s.alerts.map (AlertLine.raise .linkFault) })) ∧
    (s.clp.state = .training →
      exec c s = .next (State.settle { s with clp := { s.clp with lanes := lanes, state := .down, attempt := 0 } })) ∧
    (s.clp.state = .down →
      exec c s = .next (if c = .linkReset then s else State.settle { s with clp.lanes := lanes }))

/-- R142, R143, R136, R140: a request frame in UP is discarded with one credit owed when its check fails, discarded with
no credit when the Request Queue is full, and otherwise joins the queue and reloads the quiet timer. R178: a frame passes
its check exactly when it has the length of the kind its header names, in bits 27..26, and ends with the check word of the
bytes before, least significant byte first. That a frame of another length fails, and is counted and owed a credit so, is
the model's reading (log entry 9). Outside UP no request frame is received, and the command changes nothing (log entry
2). -/
def Obligations.RequestFrameIsQueuedOrDiscarded : Prop :=
  ∀ (frame : List Byte) (s : State),
    let kind := (byteAt frame 3).toNat / 4 % 4
    (framePasses frame = true ↔
      frame.length = (if kind = 0 then 264 else if kind = 1 then 17 else if kind = 2 then 9 else 10) ∧
        ∃ body, frame = body ++ (List.range 4).map (fun i => BitVec.ofNat 8 (crcWord body / 256 ^ i))) ∧
    (s.clp.state ≠ .up → exec (.requestFrameArrival frame) s = .next s) ∧
    (s.clp.state = .up → framePasses frame = false → exec (.requestFrameArrival frame) s = .next (State.settle
      { s with
        clp.owed := min 64 (s.clp.owed + 1)
        counters.integrityFailures := bump s.counters.integrityFailures 1
        alerts := s.alerts.map (AlertLine.raise .linkFault) })) ∧
    (s.clp.state = .up → framePasses frame = true → 64 ≤ s.rfe.rq.length →
      exec (.requestFrameArrival frame) s = .next (State.settle
        { s with
          counters.rqOverflows := bump s.counters.rqOverflows 1
          alerts := s.alerts.map (AlertLine.raise .linkFault) })) ∧
    (s.clp.state = .up → framePasses frame = true → s.rfe.rq.length < 64 →
      exec (.requestFrameArrival frame) s = .next (State.settle
        { s with
          rfe.rq := s.rfe.rq ++ [frameRequest frame]
          dcc.quietTimer := if s.dcc.quietDelay = 0 then .stopped else .running s.dcc.quietDelay }))

/-- R178: the check word is the cyclic check of generator 1EDC6F41h in reflected form, from FFFFFFFFh, each byte entering
bit 0 first, and complemented. A request frame is read from the places of the frame tables. Every request of the four
kinds, framed with its check word, passes its check and decodes to itself, whatever the header bits 31..28 and bits 7..5
of a word byte hold. -/
def Obligations.RequestFramesDecode : Prop :=
  (∀ bytes : List Byte,
    let bits := bytes.flatMap (fun b => (List.range 8).map (fun i => b.getLsbD i))
    let enter := fun (c : BitVec 32) (bit : Bool) =>
      (c >>> 1) ^^^ if c.getLsbD 0 != bit then (0x1EDC6F41#32).reverse else 0
    crcWord bytes = (~~~(bits.foldl enter (BitVec.allOnes 32))).toNat) ∧
  (∀ f : List Byte,
    let b := fun (k : Nat) => (byteAt f k).toNat
    let cell := b 0 + 2 ^ 8 * b 1 + 2 ^ 16 * b 2 + 2 ^ 24 * (b 3 % 4)
    frameRequest f =
      if b 3 / 4 % 4 = 0 then .cellWrite cell ((f.drop 4).take 256)
      else if b 3 / 4 % 4 = 1 then .wordWrite cell (b 4 % 32) ((f.drop 5).take 8)
      else if b 3 / 4 % 4 = 2 then .cellRead cell (byteAt f 4)
      else .wordRead cell (b 4 % 32) (byteAt f 5)) ∧
  ∀ (top pad : Nat) (r : Request), top < 16 → pad < 8 → r.InRange → decodeFrame (requestFrame top pad r) = some r

/-! ### Cells -/

/-- R145, R157: the top 128 cells below CAP are the service area, 96 cells of report window below 32 of control window,
and the cells below it are buffer cells. R15, R16: the class of a buffer cell follows the active geometries. -/
def Obligations.RingClassFollowsTheGeometry : Prop :=
  (∀ (s : State) (cell : Nat), s.cellClass cell =
    if cell < s.capacity.cells - 128 then .buffer
    else if cell < s.capacity.cells - 32 then .report (cell - (s.capacity.cells - 128))
    else if cell < s.capacity.cells then .control (cell - (s.capacity.cells - 32))
    else .outOfRange) ∧
  ∀ (s : State) (cell : Nat), s.RegionsOk → cell < s.capacity.cells - 128 →
    s.cellClass cell = .buffer ∧
    (∀ (k : Fin 64) (p : Nat), s.ringClass cell = .position k p ↔
      (s.ring k).state ≠ .off ∧ p < (s.ring k).active.length ∧
        cell =
          if (s.ring k).active.direction = .up then (s.ring k).active.base + (s.ring k).active.lead + p
          else (s.ring k).active.base + (s.ring k).active.lead + (s.ring k).active.length - 1 - p) ∧
    (∀ k : Fin 64, s.ringClass cell = .lead k ↔
      (s.ring k).state ≠ .off ∧ (s.ring k).active.base ≤ cell ∧
        cell < (s.ring k).active.base + (s.ring k).active.lead) ∧
    (s.ringClass cell = .other ↔
      ∀ k : Fin 64, (s.ring k).state ≠ .off → cell < (s.ring k).active.base ∨ (s.ring k).active.stop ≤ cell)

/-- R7 to R11 and the prefix table: the tag walk, the frame kind, the header offset, the signature, the codepoint (00
not-ECT, 10 ECT(0), 01 ECT(1), 11 CE, high bit first), the exempt value and the copies of a first cell. -/
def Obligations.FirstCellIsParsed : Prop :=
  ∀ data : List Byte,
    let two := fun (k : Nat) => (byteAt data k ++ byteAt data (k + 1) : BitVec 16)
    let tags := if two 20 = 0x8100#16 ∨ two 20 = 0x88A8#16 then (if two 24 = 0x8100#16 then 2 else 1) else 0
    let o := 22 + 4 * tags
    let version := (byteAt data o).toNat / 16
    let codepoint := fun (high low : Bool) =>
      match high, low with
      | false, false => Ecn.notEct
      | true, false => Ecn.ect0
      | false, true => Ecn.ect1
      | true, true => Ecn.ce
    let ipv4 := two (20 + 4 * tags) = 0x0800#16 ∧ version = 4 ∧ 5 ≤ (byteAt data o).toNat % 16
    let ipv6 := two (20 + 4 * tags) = 0x86DD#16 ∧ version = 6
    (parse data).tags = tags ∧ (parse data).exempt = (byteAt data 1).getLsbD 7 ∧
    (parse data).copies = (byteAt data 1).toNat % 16 ∧
    (ipv4 → (parse data).kind = .ipv4 ∧ (parse data).offset = some o ∧
      (parse data).signature = two (o + 12) ^^^ two (o + 14) ∧
      (parse data).ecn = codepoint ((byteAt data (o + 1)).getLsbD 1) ((byteAt data (o + 1)).getLsbD 0)) ∧
    (ipv6 → (parse data).kind = .ipv6 ∧ (parse data).offset = some o ∧
      (parse data).signature = two (o + 8) ^^^ two (o + 10) ^^^ two (o + 12) ^^^ two (o + 14) ^^^ two (o + 16) ^^^
        two (o + 18) ^^^ two (o + 20) ^^^ two (o + 22) ∧
      (parse data).ecn = codepoint ((byteAt data (o + 1)).getLsbD 5) ((byteAt data (o + 1)).getLsbD 4)) ∧
    (¬ipv4 → ¬ipv6 → (parse data).kind = .other ∧ (parse data).offset = none ∧
      (parse data).signature = two 14 ^^^ two 16 ^^^ two 18 ∧ (parse data).ecn = .notEct)

/-! ### CELL_WRITE and WORD_WRITE -/

/-- R20 to R24, R144: the position effect and the counters of the five cases of a CELL_WRITE at a ring position, held,
admitted or bypassed, and what of the ring and the part they leave. A rewrite leaves the records, their counters and the
Sender List as well. The lines are those before, after POOL_EMPTY where an accepted first cell finds the pool empty (R32),
and STORE_MUST where an admission brings fill up to the high mark in use (R111), each raised on every line. -/
def Obligations.PositionWriteMovesTheFill : Prop :=
  ∀ (s : State) (cell : Nat) (data : List Byte) (rest : List Request) (k : Fin 64) (p : Nat),
    s.HeadWritesPosition cell data rest k p →
    ∃ u : State, exec .cellWrite s = .next u.settle ∧ s.TakeKeeps rest u ∧ (∀ j, j ≠ k → u.ring j = s.ring j) ∧
      u.dcc.readQ = s.dcc.readQ ∧ u.rfe.ready = s.rfe.ready ∧ u.rfe.tags = s.rfe.tags ∧
      u.counters = { s.counters with evictions := u.counters.evictions, overwrites := u.counters.overwrites } ∧
      (s.hst.lookup? cell = none → u.rfe.responses = s.rfe.responses ∧ u.counters.overwrites = s.counters.overwrites) ∧
      (∀ l : Fin 4, u.alerts[l].mode = s.alerts[l].mode ∧ u.alerts[l].width = s.alerts[l].width ∧
        u.alerts[l].mask = s.alerts[l].mask ∧
        ∀ i, i ≠ 3 → i ≠ 4 → u.alerts[l].flags.getLsbD i = s.alerts[l].flags.getLsbD i) ∧
      let r := s.ring k
      let v := u.ring k
      let c := r.counters
      let n := r.active.length
      let away := (p + n - r.drainPos) % n
      let kept := if r.occ ≠ 0 ∧ p ≠ r.fillPos then [] else r.records.filter (fun x => x.pos != p)
      let empty := (r.occ = 0 ∨ p = r.fillPos ∨ r.occ ≤ away) ∧
        ((byteAt data 0).toNat % 4 = 0 ∨ (byteAt data 0).toNat % 4 = 3) ∧
        s.poolFree + (r.records.length - kept.length) = 0
      let must := s.hst.lookup? cell = none ∧ s.WouldAdmit k p data ∧
        s.hst.slots.length + 1 = max s.hst.highMark s.hst.lowMark
      (∃ lines : Vector AlertLine 4, (empty → lines = s.alerts.map (AlertLine.raise .poolEmpty)) ∧
        (¬empty → lines = s.alerts) ∧ (must → u.alerts = lines.map (AlertLine.raise .storeMust)) ∧
        (¬must → u.alerts = lines)) ∧
      (s.hst.lookup? cell ≠ none → v.counters.admitted = c.admitted ∧ v.counters.bypassed = c.bypassed) ∧
      v.estimate = r.estimate ∧ v.active = r.active ∧ v.staged = r.staged ∧ v.stagedSettings = r.stagedSettings ∧
      v.credit = r.credit ∧ v.counters.readCases = c.readCases ∧ v.counters.marks = c.marks ∧
      v.counters.skippedUnread = c.skippedUnread ∧
      (r.occ = 0 → v.track = ((p + 1) % n, p, 1, r.reads) ∧
        v.counters.writes = (bump c.cellsIn 1, c.overruns, c.rewrites, c.resyncs)) ∧
      (r.occ ≠ 0 → p = r.fillPos → r.occ < n → v.track = ((r.fillPos + 1) % n, r.drainPos, r.occ + 1, r.reads) ∧
        v.counters.writes = (bump c.cellsIn 1, c.overruns, c.rewrites, c.resyncs)) ∧
      (r.occ ≠ 0 → p = r.fillPos → n ≤ r.occ →
        v.track = ((r.fillPos + 1) % n, (r.drainPos + 1) % n, r.occ, r.reads) ∧
        v.counters.writes = (bump c.cellsIn 1, bump c.overruns 1, c.rewrites, c.resyncs)) ∧
      (r.occ ≠ 0 → p ≠ r.fillPos → away < r.occ → v.track = r.track ∧
        v.counters.writes = (c.cellsIn, c.overruns, bump c.rewrites 1, c.resyncs) ∧ v.records = r.records ∧
        v.senders = r.senders ∧ v.counters.lostRecords = c.lostRecords ∧ v.counters.untracked = c.untracked ∧ u.poolFree = s.poolFree ∧
        u.counters.evictions = s.counters.evictions ∧
        ∀ l : Fin 4, u.alerts[l].flags.getLsbD 4 = s.alerts[l].flags.getLsbD 4) ∧
      (r.occ ≠ 0 → p ≠ r.fillPos → r.occ ≤ away → v.track = ((p + 1) % n, r.drainPos, away + 1, r.reads) ∧
        v.counters.writes = (bump c.cellsIn 1, c.overruns, c.rewrites, bump c.resyncs 1))

/-- R24, R25, R31, R32, R42, R43: the record effects and the sender update of an accepted write. POOL_EMPTY is raised, on
every line, for a record that finds the pool empty, and otherwise not (the lines with their pulses:
`PositionWriteMovesTheFill`). -/
def Obligations.AcceptedWriteUpdatesRecordsAndSenders : Prop :=
  ∀ (s : State) (cell : Nat) (data : List Byte) (rest : List Request) (k : Fin 64) (p : Nat),
    s.HeadWritesPosition cell data rest k p → (s.ring k).SendersOk →
    ((s.ring k).occ = 0 ∨ p = (s.ring k).fillPos ∨
      (s.ring k).occ ≤ (p + (s.ring k).active.length - (s.ring k).drainPos) % (s.ring k).active.length) →
    ∃ u : State, exec .cellWrite s = .next u.settle ∧
      let r := s.ring k
      let v := u.ring k
      let kept := if r.occ ≠ 0 ∧ p ≠ r.fillPos then [] else r.records.filter (fun x => x.pos != p)
      let lost := r.records.length - kept.length
      let sm := parse data
      let copies := if sm.copies = 0 then 1 else sm.copies
      let first := (byteAt data 0).toNat % 4 = 0 ∨ (byteAt data 0).toNat % 4 = 3
      v.counters.lostRecords = bump r.counters.lostRecords lost ∧
      (¬first → v.records = kept ∧ u.poolFree = s.poolFree + lost ∧ v.senders = r.senders ∧
        v.counters.untracked = r.counters.untracked ∧ u.counters.evictions = s.counters.evictions) ∧
      (first → s.poolFree + lost ≠ 0 → kept.length < r.settings.quota →
        v.records = kept ++ [{ pos := p, kind := sm.kind, offset := sm.offset, ecn := sm.ecn, exempt := sm.exempt,
                               total := copies, left := copies, decision := .none, arrival := s.sje.epoch }] ∧
        u.poolFree = s.poolFree + lost - 1 ∧ v.counters.untracked = r.counters.untracked) ∧
      (first → s.poolFree + lost = 0 ∨ r.settings.quota ≤ kept.length →
        v.records = kept ∧ u.poolFree = s.poolFree + lost ∧
        v.counters.untracked = bump r.counters.untracked 1) ∧
      (first → s.poolFree + lost = 0 → ∀ l : Fin 4, u.alerts[l].flags.getLsbD 4 = true) ∧
      (¬first ∨ s.poolFree + lost ≠ 0 → ∀ l : Fin 4, u.alerts[l].flags.getLsbD 4 = s.alerts[l].flags.getLsbD 4) ∧
      (first → (∀ e ∈ r.senders, e.signature ≠ sm.signature) →
        v.senders = { signature := sm.signature, lastSeen := s.sje.epoch, packets := 1 } ::
          (if r.senders.length < 16 then r.senders else r.senders.dropLast) ∧
        u.counters.evictions =
          if r.senders.length < 16 then s.counters.evictions else bump s.counters.evictions 1) ∧
      ∀ (front back : List Sender) (e : Sender), first → r.senders = front ++ e :: back → e.signature = sm.signature →
        v.senders = { signature := sm.signature, lastSeen := s.sje.epoch, packets := min 65535 (e.packets + 1) } ::
          (front ++ back) ∧
        u.counters.evictions = s.counters.evictions

/-- R100 to R102, R111: the admission test of a CELL_WRITE at an unheld ring position, with T from Q after the write's own
tracking; an admitted write takes a FREE slot at the young end, and any other is a bypass. STORE_MUST is raised, on every
line, by the admission that brings fill up to the high mark in use, and otherwise not (the lines with their pulses:
`PositionWriteMovesTheFill`). -/
def Obligations.PositionWriteIsAdmittedOrBypassed : Prop :=
  ∀ (s : State) (cell : Nat) (data : List Byte) (rest : List Request) (k : Fin 64) (p : Nat),
    s.HeadWritesPosition cell data rest k p → (∀ x ∈ s.hst.slots, x.cell ≠ cell) →
    ∃ u : State, exec .cellWrite s = .next u.settle ∧
      let r := s.ring k
      let v := u.ring k
      let copies := (byteAt data 1).toNat % 16
      let risen := s.hst.slots.length + 1 = max s.hst.highMark s.hst.lowMark
      let pass := s.hst.holdEnable = true ∧ r.settings.holdEnable = true ∧ r.state ≠ .stalled ∧ 1 ≤ copies ∧
        sojourn v.occ r.drain < r.settings.hh ∧ (∃ n, n < 2048 ∧ ∀ x ∈ s.hst.slots, x.num ≠ n) ∧ s.hst.flush = false
      (pass ↔ s.WouldAdmit k p data) ∧
      (pass → ∃ n, n < 2048 ∧ (∀ x ∈ s.hst.slots, x.num ≠ n) ∧
        u.hst.slots = s.hst.slots ++ [{ num := n, state := .held, cell := cell, data := data, remaining := copies,
                                        ring := k, admitted := s.sje.epoch }] ∧
        u.dcc.writeQ = s.dcc.writeQ ∧ u.dcc.nextSeq = s.dcc.nextSeq ∧
        v.counters.admitted = bump r.counters.admitted 1 ∧ v.counters.bypassed = r.counters.bypassed ∧
        ∀ l : Fin 4, (risen → u.alerts[l].flags.getLsbD 3 = true) ∧
          (¬risen → u.alerts[l].flags.getLsbD 3 = s.alerts[l].flags.getLsbD 3)) ∧
      (¬pass → u.hst.slots = s.hst.slots ∧
        u.dcc.writeQ = s.dcc.writeQ ++ [{ cell := cell, payload := .full data, seq := s.dcc.nextSeq }] ∧
        v.counters.admitted = r.counters.admitted ∧ v.counters.bypassed = bump r.counters.bypassed 1 ∧
        ∀ l : Fin 4, u.alerts[l].flags.getLsbD 3 = s.alerts[l].flags.getLsbD 3)

/-- R103, R104, R109: a CELL_WRITE to a held cell, of any class, replaces the slot's data and remaining reads and voids
every claim on the slot; a HELD slot moves to the young end, and a retiring slot becomes RETIRING_WRITTEN in its
place. It is neither admitted nor bypassed. -/
def Obligations.HeldCellIsOverwritten : Prop :=
  ∀ (s : State) (cell : Nat) (data : List Byte) (rest : List Request) (x : Slot),
    s.rfe.rq = .cellWrite cell data :: rest → s.cellClass cell = .buffer → s.hst.lookup? cell = some x →
    ∃ u : State, exec .cellWrite s = .next u.settle ∧ s.TakeKeeps rest u ∧ u.dcc = s.dcc ∧
      u.rfe.ready = s.rfe.ready ∧ u.rfe.tags = s.rfe.tags ∧
      u.counters = { s.counters with evictions := u.counters.evictions, overwrites := bump s.counters.overwrites 1 } ∧
      (∀ j : Fin 64, (∀ p, s.ringClass cell ≠ .position j p) → u.ring j = s.ring j) ∧
      ((∀ k p, s.ringClass cell ≠ .position k p) →
        u.counters.evictions = s.counters.evictions ∧ u.poolFree = s.poolFree ∧ u.alerts = s.alerts) ∧
      (∀ l : Fin 4, u.alerts[l].flags.getLsbD 3 = s.alerts[l].flags.getLsbD 3) ∧
      (∀ j : Fin 64, (u.ring j).counters.admitted = (s.ring j).counters.admitted ∧
        (u.ring j).counters.bypassed = (s.ring j).counters.bypassed) ∧
      u.rfe.responses = s.rfe.responses.map (fun r => if r.claim = some x.num then { r with claim := none } else r) ∧
      let reads := if (byteAt data 1).toNat % 16 = 0 then 15 else (byteAt data 1).toNat % 16
      (x.state = .held → u.hst.slots = s.hst.slots.filter (fun y => y.num != x.num) ++
        [{ x with data := data, remaining := reads, admitted := s.sje.epoch }]) ∧
      (x.state ≠ .held → u.hst.slots = s.hst.slots.map (fun y =>
        if y.num = x.num then { x with data := data, remaining := reads, state := .retiringWritten } else y))

/-- R100, R105, R126, R148: a CELL_WRITE to an unheld lead cell, other cell or cell of an OFF ring joins the write queue
as a full write; a WORD_WRITE joins it as a partial write when the cell is unheld, and is merged into the slot, with
nothing sent to DRAM, when it is held. R157: either write to the report window is discarded without a trace. -/
def Obligations.PlainWritesAreQueuedMergedOrDiscarded : Prop :=
  ∀ (s : State) (cell w : Nat) (data : List Byte) (rest : List Request),
    (s.capacity.cells - 128 ≤ cell → cell < s.capacity.cells - 32 →
      (s.rfe.rq = .cellWrite cell data :: rest → exec .cellWrite s = .next (State.settle (s.afterHead rest))) ∧
      (s.rfe.rq = .wordWrite cell w data :: rest → exec .wordWrite s = .next (State.settle (s.afterHead rest)))) ∧
    (s.cellClass cell = .buffer → s.rfe.rq = .cellWrite cell data :: rest → (∀ k p, s.ringClass cell ≠ .position k p) →
      s.hst.lookup? cell = none → s.dcc.writeQ.length < 32 →
      exec .cellWrite s = .next (State.settle (s.queuedWrite rest cell (.full data)))) ∧
    (s.cellClass cell = .buffer → s.rfe.rq = .wordWrite cell w data :: rest → s.hst.lookup? cell = none →
      s.dcc.writeQ.length < 32 →
      exec .wordWrite s = .next (State.settle (s.queuedWrite rest cell (.partialWord w data)))) ∧
    ∀ x, s.cellClass cell = .buffer → s.rfe.rq = .wordWrite cell w data :: rest → s.hst.lookup? cell = some x →
      exec .wordWrite s = .next (State.settle
        { s.afterHead rest with
          hst.slots := s.hst.slots.map (fun y =>
            if y.num = x.num then
              { y with data := y.data.take (8 * w) ++ data ++ y.data.drop (8 * w + 8)
                       state := if y.state = .held then .held else .retiringWritten }
            else y) })

/-- R147: an out-of-range request is counted and raises RANGE on every line. A write is discarded and earns its credit; a
read whose tag is not outstanding takes an entry that is READY at once, with status RANGE, zero bytes of its extent, no
decision and no claim, and its tag joins the outstanding set. Nothing else changes. -/
def Obligations.OutOfRangeRequestsAreRefused : Prop :=
  ∀ (s : State) (c : Instr) (cell w : Nat) (data : List Byte) (tag : Tag) (x : Extent) (rest : List Request),
    s.capacity.cells ≤ cell →
    let counted : State := { s with
      counters.rangeErrors := bump s.counters.rangeErrors 1
      alerts := s.alerts.map (AlertLine.raise .range) }
    ((c = .cellWrite ∧ s.rfe.rq = .cellWrite cell data :: rest ∨
      c = .wordWrite ∧ s.rfe.rq = .wordWrite cell w data :: rest) →
      exec c s = .next (State.settle (counted.afterHead rest))) ∧
    ((c = .cellRead ∧ x = .cell ∧ s.rfe.rq = .cellRead cell tag :: rest ∨
      c = .wordRead ∧ ∃ w, x = .word w ∧ s.rfe.rq = .wordRead cell w tag :: rest) →
      s.rfe.responses.length < 64 → tag ∉ s.rfe.tags →
      ∃ id, id < 64 ∧ (∀ r ∈ s.rfe.responses, r.id ≠ id) ∧
        exec c s = .next (State.settle (counted.readyRead rest
          { id := id, state := .ready, tag := tag, extent := x, status := .range,
            data := List.replicate x.size 0, decision := .none, header := none, claim := none })))

/-! ### CELL_READ and WORD_READ -/

/-- R26 to R29: the position effect and the counters of the three cases of a CELL_READ at a ring position, and what of
the ring they leave. -/
def Obligations.PositionReadMovesTheDrain : Prop :=
  ∀ (s : State) (cell : Nat) (tag : Tag) (rest : List Request) (k : Fin 64) (p : Nat),
    s.HeadReadsPosition cell tag rest k p →
    ∃ u : State, exec .cellRead s = .next u.settle ∧ s.TakeKeeps rest u ∧ (∀ j, j ≠ k → u.ring j = s.ring j) ∧
      u.dcc.writeQ = s.dcc.writeQ ∧ u.hst.slots = s.hst.slots ∧ u.alerts = s.alerts ∧
      u.counters = { s.counters with hits := u.counters.hits, misses := u.counters.misses } ∧
      let r := s.ring k
      let v := u.ring k
      let c := r.counters
      let n := r.active.length
      let away := (p + n - r.drainPos) % n
      v.estimate = r.estimate ∧ v.active = r.active ∧ v.staged = r.staged ∧ v.stagedSettings = r.stagedSettings ∧
      v.senders = r.senders ∧ v.counters.writes = c.writes ∧ v.counters.untracked = c.untracked ∧
      v.counters.lostRecords = c.lostRecords ∧ v.counters.admitted = c.admitted ∧ v.counters.bypassed = c.bypassed ∧
      (r.occ ≠ 0 → p = r.drainPos →
        v.track = (r.fillPos, (r.drainPos + 1) % n, r.occ - 1, min 4095 (r.reads + 1)) ∧
        v.counters.readCases = (bump c.cellsOut 1, c.skippedCells, c.strayReads)) ∧
      (r.occ ≠ 0 → p ≠ r.drainPos → away < r.occ →
        v.track = (r.fillPos, (p + 1) % n, r.occ - (away + 1), min 4095 (r.reads + (away + 1))) ∧
        v.counters.readCases = (bump c.cellsOut (away + 1), bump c.skippedCells away, c.strayReads)) ∧
      (r.occ = 0 ∨ p ≠ r.drainPos ∧ r.occ ≤ away → v.track = r.track ∧
        v.counters.readCases = (c.cellsOut, c.skippedCells, bump c.strayReads 1))

/-- R33, R34, R78 to R80, R84, R87: the header lookup of a CELL_READ at a ring position. A read that finds a record takes
a decision if the record holds none and otherwise reuses the stored one; the credit and the marking counters move at a
decision only. A read that finds none is plain. -/
def Obligations.HeaderLookupDecidesOnce : Prop :=
  ∀ (s : State) (cell : Nat) (tag : Tag) (rest : List Request) (k : Fin 64) (p : Nat),
    s.HeadReadsPosition cell tag rest k p →
    ∃ (u : State) (e : Response), exec .cellRead s = .next u.settle ∧ u.rfe.responses = s.rfe.responses ++ [e] ∧
      e.tag = tag ∧
      let r := s.ring k
      let v := u.ring k
      let c := r.counters
      ((∀ x ∈ r.records, x.pos ≠ p ∨ x.left = 0) →
        v.records = r.records ∧ u.poolFree = s.poolFree ∧ v.credit = r.credit ∧ v.counters.marks = c.marks ∧
        v.counters.skippedUnread = c.skippedUnread ∧ e.decision = .none ∧ e.header = none) ∧
      ∀ (older newer : List PacketRecord) (x : PacketRecord), r.records = older ++ x :: newer → x.pos = p → 0 < x.left →
        (∀ y ∈ older, y.pos ≠ p ∨ y.left = 0) →
        let kept := older.filter (fun y => y.left != y.total)
        let verdict := decideMark (markKind x.exempt x.kind x.ecn) r.settings.policy r.credit
          (share (sojourn r.occ r.drain) r.settings.ps (r.settings.tl / 2 ^ r.ramp) (r.settings.th / 2 ^ r.ramp))
        let d := if x.decision = .none then verdict.decision else x.decision
        v.records = kept ++ ((if x.left = 1 then [] else [{ x with decision := d, left := x.left - 1 }]) ++ newer) ∧
        u.poolFree = s.poolFree + (older.length - kept.length) + (if x.left = 1 then 1 else 0) ∧
        v.counters.skippedUnread = bump c.skippedUnread (older.length - kept.length) ∧
        v.credit = (if x.decision = .none then verdict.credit else r.credit) ∧
        v.counters.marks =
          (if x.decision = .none then
            (if d = .mark then bump c.marked 1 else c.marked, if d = .ceAlready then bump c.ceAlready 1 else c.ceAlready,
             if d = .unmarkable then bump c.unmarkable 1 else c.unmarkable,
             if x.exempt = true then bump c.exempt 1 else c.exempt)
          else c.marks) ∧
        e.decision = d ∧ e.header = if d = .mark then x.offset.map (fun o => { kind := x.kind, offset := o }) else none

/-- R83: the two extremes of the share give the decision a fixed form, for every credit and policy; a ring whose sojourn
is below TL' marks nothing and keeps its credit, a ring past TH' marks every markable packet, and a non-empty ring with
D = 0 has T = 65535 and P = 256. -/
def Obligations.ShareExtremesFixTheDecision : Prop :=
  (∀ (kind : MarkKind) (policy : Policy) (a : Nat), kind ≠ .exempt → a ≤ 255 →
    decideMark kind policy a 0 = { decision := .pass, credit := a } ∧
    (kind = .markable → decideMark kind policy a 256 = { decision := .mark, credit := a }) ∧
    (kind = .alreadyCe → decideMark kind policy a 256 = { decision := .ceAlready, credit := a }) ∧
    (kind = .notMarkable → decideMark kind policy a 256 =
      { decision := .unmarkable, credit := if policy = .spend then a else 255 })) ∧
  ∀ (r : Ring) (x : PacketRecord), r.EstimateOk → r.settings.th ≤ 65535 → x.exempt = false →
    (sojourn r.occ r.drain < r.settings.tl / 2 ^ r.ramp →
      r.verdict x r.occ = { decision := .pass, credit := r.credit }) ∧
    (r.settings.th / 2 ^ r.ramp ≤ sojourn r.occ r.drain → x.markKind = .markable →
      r.verdict x r.occ = { decision := .mark, credit := r.credit }) ∧
    (0 < r.occ → r.drain = 0 → sojourn r.occ r.drain = 65535 ∧ r.shareAt r.occ = 256 ∧
      (x.markKind = .markable → r.verdict x r.occ = { decision := .mark, credit := r.credit }))

/-- R106, R107, R88, R149: a read of a held cell is a hit. Its entry is READY at the take with the slot's bytes, rewritten
if the read carries MARK; a CELL_READ takes a claim on the slot, and a WORD_READ takes none. -/
def Obligations.HitsCopyTheSlot : Prop :=
  ∀ (s : State) (cell w : Nat) (tag : Tag) (rest : List Request) (x : Slot), s.cellClass cell = .buffer →
    s.hst.lookup? cell = some x → tag ∉ s.rfe.tags → s.rfe.responses.length < 64 →
    (s.rfe.rq = .cellRead cell tag :: rest → ∃ (u : State) (e : Response), exec .cellRead s = .next u.settle ∧
      s.TakeKeeps rest u ∧ u.dcc = s.dcc ∧ u.hst = s.hst ∧ u.alerts = s.alerts ∧
      u.counters = { s.counters with hits := bump s.counters.hits 1 } ∧
      (∀ j : Fin 64, (∀ p, s.ringClass cell ≠ .position j p) → u.ring j = s.ring j) ∧
      ((∀ k p, s.ringClass cell ≠ .position k p) →
        u.poolFree = s.poolFree ∧ e.decision = .none ∧ e.header = none) ∧
      u.rfe.responses = s.rfe.responses ++ [e] ∧ u.rfe.ready = s.rfe.ready ++ [e.id] ∧
      u.rfe.tags = s.rfe.tags ++ [tag] ∧ e.id < 64 ∧ (∀ r ∈ s.rfe.responses, r.id ≠ e.id) ∧ e.state = .ready ∧
      e.tag = tag ∧ e.extent = .cell ∧ e.status = .ok ∧ e.data = rewritten e.header x.data ∧
      e.claim = some x.num) ∧
    (s.rfe.rq = .wordRead cell w tag :: rest → ∃ id, id < 64 ∧ (∀ r ∈ s.rfe.responses, r.id ≠ id) ∧
      exec .wordRead s = .next (State.settle (State.readyRead rest
        { id := id, state := .ready, tag := tag, extent := .word w, status := .ok,
          data := (x.data.drop (8 * w)).take 8, decision := .none, header := none, claim := none }
        { s with counters.hits := bump s.counters.hits 1 })))

/-- R106, R107, R125, R149, R157: a read of an unheld buffer cell is a miss, counted, and a read of the control window is
neither; each joins the read queue with its entry WAITING. The boost flag is set for a CELL_READ at a position of a ring
that is INCAST, and for no other read. -/
def Obligations.MissesJoinTheReadQueue : Prop :=
  ∀ (s : State) (cell w : Nat) (tag : Tag) (rest : List Request), tag ∉ s.rfe.tags → s.rfe.responses.length < 64 →
    s.dcc.readQ.length < 32 →
    (∀ (k : Fin 64) (p : Nat), s.HeadReadsPosition cell tag rest k p → s.hst.lookup? cell = none →
      ∃ (u : State) (e : Response), exec .cellRead s = .next u.settle ∧ s.TakeKeeps rest u ∧
        u.counters = { s.counters with misses := bump s.counters.misses 1 } ∧
        u.rfe.responses = s.rfe.responses ++ [e] ∧ u.rfe.ready = s.rfe.ready ∧ u.rfe.tags = s.rfe.tags ++ [tag] ∧
        e.id < 64 ∧ (∀ r ∈ s.rfe.responses, r.id ≠ e.id) ∧ e.state = .waiting ∧ e.tag = tag ∧ e.extent = .cell ∧
        e.status = .ok ∧ e.claim = none ∧
        u.dcc.readQ = s.dcc.readQ ++ [{ cell := cell, extent := .cell, entry := e.id,
                                        boost := decide ((s.ring k).state = .incast), seq := s.dcc.nextSeq }]) ∧
    (s.cellClass cell = .buffer → s.hst.lookup? cell = none →
      (s.rfe.rq = .cellRead cell tag :: rest → (∀ k p, s.ringClass cell ≠ .position k p) →
        ∃ id, id < 64 ∧ (∀ r ∈ s.rfe.responses, r.id ≠ id) ∧
          exec .cellRead s = .next (State.settle (State.queuedRead rest cell id tag .cell
            { s with counters.misses := bump s.counters.misses 1 }))) ∧
      (s.rfe.rq = .wordRead cell w tag :: rest → ∃ id, id < 64 ∧ (∀ r ∈ s.rfe.responses, r.id ≠ id) ∧
        exec .wordRead s = .next (State.settle (State.queuedRead rest cell id tag (.word w)
          { s with counters.misses := bump s.counters.misses 1 })))) ∧
    ∀ n, s.cellClass cell = .control n →
      (s.rfe.rq = .cellRead cell tag :: rest → ∃ id, id < 64 ∧ (∀ r ∈ s.rfe.responses, r.id ≠ id) ∧
        exec .cellRead s = .next (State.settle (s.queuedRead rest cell id tag .cell))) ∧
      (s.rfe.rq = .wordRead cell w tag :: rest → ∃ id, id < 64 ∧ (∀ r ∈ s.rfe.responses, r.id ≠ id) ∧
        exec .wordRead s = .next (State.settle (s.queuedRead rest cell id tag (.word w))))

/-- R146: a read whose tag is outstanding is answered TAG_REUSED, whatever its cell, with zero bytes of its extent in an
entry that is READY at once; it is counted, raises LINK_FAULT on every line, and leaves the outstanding tags as they
were. R178: a cell's data are 256 bytes, a word's 8. -/
def Obligations.ReusedTagsAreRefused : Prop :=
  (Extent.size .cell = 256 ∧ ∀ w, Extent.size (.word w) = 8) ∧
  ∀ (s : State) (c : Instr) (cell : Nat) (tag : Tag) (x : Extent) (rest : List Request),
    (c = .cellRead ∧ x = .cell ∧ s.rfe.rq = .cellRead cell tag :: rest ∨
      c = .wordRead ∧ ∃ w, x = .word w ∧ s.rfe.rq = .wordRead cell w tag :: rest) →
    s.rfe.responses.length < 64 → tag ∈ s.rfe.tags → ∃ id, id < 64 ∧ (∀ r ∈ s.rfe.responses, r.id ≠ id) ∧
      exec c s = .next (State.settle (State.readyRead rest
        { id := id, state := .ready, tag := tag, extent := x, status := .tagReused,
          data := List.replicate x.size 0, decision := .none, header := none, claim := none }
        { s with
          counters.tagReuses := bump s.counters.tagReuses 1
          alerts := s.alerts.map (AlertLine.raise .linkFault) }))

/-- R156, R169 to R173, R51: a report read changes nothing but its own entry, tag and place in the queue. Its bytes show
the state its take leaves, its own entry counted (log entry 10): cell 0 the fields of the device report, cells 1..32 those
of two ring reports each, cells 33..48 those of four Sender Lists each, and cells 49..95 zero. A word read gives the eight
bytes of its word of that cell. A field shows the low bytes of its value. -/
def Obligations.ReportReadsShowTheTake : Prop :=
  ∀ (s : State) (c : Instr) (cell n : Nat) (tag : Tag) (x : Extent) (rest : List Request),
    (c = .cellRead ∧ x = .cell ∧ s.rfe.rq = .cellRead cell tag :: rest ∨
      c = .wordRead ∧ ∃ w, x = .word w ∧ s.rfe.rq = .wordRead cell w tag :: rest) →
    s.cellClass cell = .report n → tag ∉ s.rfe.tags → s.rfe.responses.length < 64 →
    ∃ id data bytes, id < 64 ∧ (∀ r ∈ s.rfe.responses, r.id ≠ id) ∧
      let u := State.readyRead rest
        { id := id, state := .ready, tag := tag, extent := x, status := .ok, data := data, decision := .none,
          header := none, claim := none } s
      exec c s = .next u.settle ∧
      (x = .cell → data = bytes) ∧ (∀ w, x = .word w → data = (bytes.drop (8 * w)).take 8) ∧ bytes.length = 256 ∧
      (n = 0 → Shows bytes u.deviceFields) ∧
      (∀ k : Fin 64, n = 1 + k.val / 2 → Shows (bytes.drop (128 * (k.val % 2))) (u.ringFields k)) ∧
      (∀ k : Fin 64, n = 33 + k.val / 4 → Shows (bytes.drop (64 * (k.val % 4))) (u.senderFields k)) ∧
      (49 ≤ n → bytes = List.replicate 256 0)

/-! ### Control-window writes -/

/-- R158 to R162, R178, R17: SETTING_WRITE of device word 0 stages EL, W and SL, and of ring words 0..5 stages geometry
and settings as written; the write joins the write queue in the same take. -/
def Obligations.SettingWritesAreStaged : Prop :=
  ∀ (s : State) (d : List Byte) (rest : List Request), s.dcc.writeQ.length < 32 →
    (s.rfe.rq = .wordWrite (s.capacity.cells - 32) 0 d :: rest →
      exec .settingWrite s = .next (State.settle
        { s.queuedWrite rest (s.capacity.cells - 32) (.partialWord 0 d) with
          swu.stagedEl := leField d 0 2, swu.stagedW := leField d 2 2, swu.stagedSl := leField d 4 2 })) ∧
    ∀ k : Fin 64,
      let cell := s.capacity.cells - 32 + (1 + k.val / 4)
      let r := s.ring k
      let g := r.stagedSettings
      let stages := fun (j : Nat) (v : Ring) =>
        s.rfe.rq = .wordWrite cell (8 * (k.val % 4) + j) d :: rest →
          exec .settingWrite s = .next (State.settle
            ((s.queuedWrite rest cell (.partialWord (8 * (k.val % 4) + j) d)).setRing k v))
      stages 0 { r with staged.base := leField d 0 4 } ∧
      stages 1 { r with staged := { base := r.staged.base, lead := leField d 0 2, length := leField d 2 4,
                                    direction := if leField d 6 1 = 0 then .up else .down } } ∧
      stages 2 { r with stagedSettings := { g with tl := leField d 0 2, th := leField d 2 2 } } ∧
      stages 3 { r with stagedSettings :=
        { g with ps := leField d 0 2, ft := leField d 2 1, ml := leField d 3 1, dw := leField d 4 1 } } ∧
      stages 4 { r with stagedSettings := { g with qf := leField d 0 2, hh := leField d 2 2 } } ∧
      stages 5 { r with stagedSettings :=
        { g with policy := leField d 0 1, holdEnable := leField d 1 1, quota := leField d 2 2,
                 alertGroup := leField d 4 1 } }

/-- R99, R111, R133, R136, R177, R178: device word 1 applies the store settings with their clamps and raises STORE_MUST
when it brings the high mark in use down to fill; device word 2 applies the quiet delay, reloads the quiet timer and
stages the refresh interval, under either of the commands it carries; device words 3..6 set a line's mode, width and mask,
and a running pulse goes on. -/
def Obligations.DeviceSettingsActAtTheTake : Prop :=
  ∀ (s : State) (d : List Byte) (rest : List Request), s.dcc.writeQ.length < 32 →
    let cell := s.capacity.cells - 32
    let low := max 1 (min 2048 (leField d 2 2))
    let high := min 2048 (leField d 4 2)
    (s.rfe.rq = .wordWrite cell 1 d :: rest →
      exec .storeSettingsWrite s = .next (State.settle
        { s.queuedWrite rest cell (.partialWord 1 d) with
          hst := { s.hst with holdEnable := leField d 0 1 != 0, lowMark := low, highMark := high,
                              ageLimit := max 1 (min 255 (leField d 6 2)) }
          alerts :=
            if s.hst.slots.length < max s.hst.highMark s.hst.lowMark ∧ max high low ≤ s.hst.slots.length then
              s.alerts.map (AlertLine.raise .storeMust)
            else s.alerts })) ∧
    (∀ c, c = .quietDelayWrite ∨ c = .settingWrite → s.rfe.rq = .wordWrite cell 2 d :: rest →
      exec c s = .next (State.settle
        { s.queuedWrite rest cell (.partialWord 2 d) with
          swu.stagedRefresh := leField d 0 2
          dcc.quietDelay := min 255 (leField d 2 2)
          dcc.quietTimer := if leField d 2 2 = 0 then .stopped else .running (min 255 (leField d 2 2)) })) ∧
    ∀ n : Fin 4, s.rfe.rq = .wordWrite cell (3 + n.val) d :: rest →
      exec .alertLineWrite s = .next (State.settle
        { s.queuedWrite rest cell (.partialWord (3 + n.val) d) with
          alerts := s.alerts.set n
            { s.alerts[n] with
              mode := [AlertMode.level, .inverted, .pulseHigh, .pulseLow].getD (leField d 0 1 % 4) .level
              width := [PulseWidth.us1, .us10, .us100, .ms1].getD (leField d 1 1 % 4) .us1
              mask := BitVec.ofNat 7 (leField d 2 1) } })

/-- R157 to R159: the take of a CELL_WRITE to the control window queues the full write and decodes the 32 words in
ascending order. A word that is not decoded (words 8..31 of cell 0, word 6 of a ring, words 5..31 of cell 17, every word
of cells 18..31) acts on nothing, and a WORD_WRITE of it is queued like any other. Each command named for a control word
is the same take, CELL_WRITE or WORD_WRITE, when the head carries a word of its kind, and otherwise changes nothing (log
entry 1). -/
def Obligations.ControlCellsDecodeInOrder : Prop :=
  ∀ s : State,
    (∀ (n : Nat) (data : List Byte) (rest : List Request), n < 32 →
      s.rfe.rq = .cellWrite (s.capacity.cells - 32 + n) data :: rest → s.dcc.writeQ.length < 32 →
      exec .cellWrite s = .next (State.settle
        ((List.range 32).foldl
          (fun t w => t.writeControl (controlWord n w) ((data.drop (8 * w)).take 8))
          (s.queuedWrite rest (s.capacity.cells - 32 + n) (.full data))))) ∧
    (∀ (n w : Nat) (d : List Byte), n < 32 → w < 32 →
      (n = 0 ∧ 8 ≤ w ∨ 1 ≤ n ∧ n ≤ 16 ∧ w % 8 = 6 ∨ n = 17 ∧ 5 ≤ w ∨ 18 ≤ n) →
      s.writeControl (controlWord n w) d = s ∧
      ∀ rest, s.rfe.rq = .wordWrite (s.capacity.cells - 32 + n) w d :: rest → s.dcc.writeQ.length < 32 →
        exec .wordWrite s = .next (State.settle
          (s.queuedWrite rest (s.capacity.cells - 32 + n) (.partialWord w d)))) ∧
    ∀ (c : Instr) (test : ControlWord → List Byte → Bool),
      (c, test) ∈ [(Instr.settingWrite, isSettingWord), (.storeSettingsWrite, isStoreWord),
        (.quietDelayWrite, isQuietWord), (.alertLineWrite, isAlertWord), (.ringEnable, isEnableWord 1),
        (.ringDisable, isEnableWord 0), (.softReset, isSoftResetWord), (.counterClear, isCounterClearWord),
        (.flagClear, isFlagClearWord)] →
      (s.headCarries test = true →
        exec c s = exec (if s.headIs Request.isCellWrite then .cellWrite else .wordWrite) s) ∧
      (s.headCarries test = false → exec c s = .next s)

/-- R35 to R38, R57, R161: an enable word of 1 or 0 acts against the ring's enable state at the take. An enable is refused
for a staged geometry out of range or in the way, with RING_REFUSED on the ring's staged group; one that passes makes the
ring active with its staged geometry and settings; a disable makes it OFF and returns its records. Any other value has no
effect of its own. A group above 3 means 3. -/
def Obligations.EnableWordsFollowTheirTable : Prop :=
  (∀ group, (clampGroup group).val = min 3 group) ∧
  ∀ (s : State) (k : Fin 64) (d : List Byte) (rest : List Request), s.dcc.writeQ.length < 32 →
    let cell := s.capacity.cells - 32 + (1 + k.val / 4)
    let w := 8 * (k.val % 4) + 7
    let q := s.queuedWrite rest cell (.partialWord w d)
    let r := s.ring k
    let g := r.staged
    let x := r.stagedSettings
    let th := max 1 x.th
    let refused := g.length < 2 ∨ 65536 < g.length ∨ 255 < g.lead ∨
      s.capacity.cells - 128 < g.base + g.lead + g.length ∨
      ∃ j : Fin 64, (s.ring j).state ≠ .off ∧ g.base < (s.ring j).active.stop ∧ (s.ring j).active.base < g.stop
    s.rfe.rq = .wordWrite cell w d :: rest →
    (leNat d ≠ 0 → leNat d ≠ 1 → exec .wordWrite s = .next q.settle) ∧
    (leNat d = 1 →
      (r.state ≠ .off → exec .ringEnable s = .next q.settle) ∧
      (r.state = .off → refused → exec .ringEnable s = .next (State.settle
        { q with
          alerts := s.alerts.set (clampGroup x.alertGroup)
            (s.alerts[clampGroup x.alertGroup].raise .ringRefused) })) ∧
      (r.state = .off → ¬refused → exec .ringEnable s = .next (State.settle (q.setRing k
        { r with
          state := .clear, active := g, fillPos := 0, drainPos := 0, occ := 0, reads := 0, records := [],
          senders := [], drain := 0, ramp := 0, stall := 0, lastT := 0, credit := 0
          settings := { tl := min x.tl (th - 1), th := th, ps := if x.ps = 0 then 256 else min 256 x.ps,
                        ft := max 2 (min 17 x.ft), ml := min 3 x.ml, dw := min 7 x.dw, qf := x.qf, hh := x.hh,
                        policy := if x.policy = 0 then .spend else .carry, holdEnable := x.holdEnable != 0,
                        quota := min 4096 x.quota, alertGroup := clampGroup x.alertGroup } })))) ∧
    (leNat d = 0 →
      (r.state = .off → exec .ringDisable s = .next q.settle) ∧
      (r.state ≠ .off → exec .ringDisable s = .next (State.settle
        ({ q with poolFree := s.poolFree + r.records.length }.setRing k
          { r with
            state := .off, active := .zero, fillPos := 0, drainPos := 0, occ := 0, reads := 0, records := [],
            senders := [], drain := 0, ramp := 0, stall := 0, lastT := 0, credit := 0 }))))

/-- R165, R116, R118, R167: a soft-reset word of 1 is ignored while a soft reset is in progress; it starts a flush when
the store holds a cell, and with an empty store the whole soft reset completes in the take. Any other value has no effect
of its own. -/
def Obligations.SoftResetStartsOrCompletes : Prop :=
  ∀ (s : State) (d : List Byte) (rest : List Request), s.dcc.writeQ.length < 32 →
    let cell := s.capacity.cells - 32
    let q := s.queuedWrite rest cell (.partialWord 7 d)
    s.rfe.rq = .wordWrite cell 7 d :: rest →
    (leNat d ≠ 1 → exec .wordWrite s = .next q.settle) ∧
    (leNat d = 1 → s.swu.softReset = true → exec .softReset s = .next q.settle) ∧
    (leNat d = 1 → s.swu.softReset = false → s.hst.slots ≠ [] →
      exec .softReset s = .next (State.settle { q with swu.softReset := true, hst.flush := true })) ∧
    (leNat d = 1 → s.swu.softReset = false → s.hst.slots = [] →
      exec .softReset s = .next (State.settle
        { q with
          rings := Vector.replicate 64 Ring.reset
          poolFree := s.poolFree + recordCount s.rings
          sje := { s.sje with el := 20, sl := 4 }
          fanInWindow := 8
          swu := { stagedEl := 20, stagedW := 8, stagedSl := 4, stagedRefresh := 39, softReset := false }
          hst := { slots := [], flush := false, holdEnable := false, lowMark := 1024, highMark := 1792, ageLimit := 50 }
          dcc := { q.dcc with quietDelay := 0, quietTimer := .stopped }
          alerts := Vector.replicate 4 AlertLine.reset
          counters := .zero }))

/-- R163, R164, R178: a counter-clear word of 1 sets every counter to 0, and nothing else, and any other value has no
effect of its own; a flag-clear word clears the flags its bits name on its own line, and a running pulse goes on. R173: a
counter that rises saturates at 2^32 - 1. -/
def Obligations.ClearWordsClear : Prop :=
  (∀ count rise : Nat, bump count rise = min (count + rise) (2 ^ 32 - 1)) ∧
  ∀ (s : State) (d : List Byte) (rest : List Request), s.dcc.writeQ.length < 32 →
    let cell := s.capacity.cells - 32 + 17
    (s.rfe.rq = .wordWrite cell 0 d :: rest → leNat d = 1 →
      exec .counterClear s = .next (State.settle
        { s.queuedWrite rest cell (.partialWord 0 d) with
          counters := .zero
          rings := s.rings.map (fun r => { r with counters := .zero }) })) ∧
    (s.rfe.rq = .wordWrite cell 0 d :: rest → leNat d ≠ 1 →
      exec .wordWrite s = .next (State.settle (s.queuedWrite rest cell (.partialWord 0 d)))) ∧
    ∀ n : Fin 4, s.rfe.rq = .wordWrite cell (1 + n.val) d :: rest →
      exec .flagClear s = .next (State.settle
        { s.queuedWrite rest cell (.partialWord (1 + n.val) d) with
          alerts := s.alerts.set n
            { s.alerts[n] with flags := s.alerts[n].flags &&& ~~~(BitVec.ofNat 7 (leField d 0 1)) } })

/-- R144, R127: a request whose need is not met stays at the head, and nothing changes: a write that needs a write-queue
entry while the queue holds 32 (at a ring position, one that fails the admission test of R100 for any reason), a read that
needs a read-queue entry while that queue holds 32, and any read while all 64 response entries are in use. That the
command for the take then changes nothing is log entry 1. -/
def Obligations.HeadWaitsForItsNeed : Prop :=
  ∀ (s : State) (cell w : Nat) (tag : Tag) (data : List Byte) (rest : List Request),
    let unheld := s.cellClass cell = .buffer ∧ s.hst.lookup? cell = none
    let control := ∃ n, s.cellClass cell = .control n
    (s.rfe.rq = .cellWrite cell data :: rest → 32 ≤ s.dcc.writeQ.length →
      (unheld ∧ (∀ k p, s.ringClass cell = .position k p → ¬s.WouldAdmit k p data) ∨ control) →
      exec .cellWrite s = .next s) ∧
    (s.rfe.rq = .wordWrite cell w data :: rest → 32 ≤ s.dcc.writeQ.length → (unheld ∨ control) →
      exec .wordWrite s = .next s) ∧
    (s.rfe.rq = .cellRead cell tag :: rest → 32 ≤ s.dcc.readQ.length → tag ∉ s.rfe.tags → (unheld ∨ control) →
      exec .cellRead s = .next s) ∧
    (s.rfe.rq = .wordRead cell w tag :: rest → 32 ≤ s.dcc.readQ.length → tag ∉ s.rfe.tags → (unheld ∨ control) →
      exec .wordRead s = .next s) ∧
    ((∀ n, n < 64 → ∃ r ∈ s.rfe.responses, r.id = n) →
      (s.rfe.rq = .cellRead cell tag :: rest → exec .cellRead s = .next s) ∧
      (s.rfe.rq = .wordRead cell w tag :: rest → exec .wordRead s = .next s))

/-! ### Timers -/

/-- R53, R54, R59, R44, R115: an epoch expiry takes the device settings with their clamps, moves the epoch number on and
reloads the timer; a slot whose age would pass 255 is kept at 255. Rings and alert lines aside, nothing else changes. -/
def Obligations.EpochExpiryTakesDeviceSettings : Prop :=
  ∀ s : State, s.sje.timer ≠ none →
    ∃ u : State, exec .epochExpiry s = .next u.settle ∧
      let el := max 2 (min 1000 s.swu.stagedEl)
      let now := s.sje.epoch + 1
      u = { s with
        sje := { epoch := now, timer := some el, el := el, sl := max 1 (min 255 s.swu.stagedSl) }
        fanInWindow := max 1 (min 255 s.swu.stagedW)
        hst.slots := s.hst.slots.map (fun x =>
          { x with admitted := if 255 < (now - x.admitted).toNat then now - 255 else x.admitted })
        rings := u.rings
        alerts := u.alerts }

/-- R46, R57, R61, R63, R69 to R74: the expiry work of every active ring, with the W and SL just taken, and the ageing of
every Sender List; an OFF ring is passed over. -/
def Obligations.EpochExpiryWorksOnEveryRing : Prop :=
  ∀ s : State, s.sje.timer ≠ none →
    ∃ t : State, exec .epochExpiry s = .next t ∧ ∀ k : Fin 64,
      let r := s.ring k
      let v := t.ring k
      let now := s.sje.epoch + 1
      let young := r.senders.filter (fun e => (now - e.lastSeen).toNat ≤ max 1 (min 255 s.swu.stagedW))
      let sl := max 1 (min 255 s.swu.stagedSl)
      let set := r.stagedSettings.taken
      let incast := set.ft ≤ young.length ∧ set.qf ≤ r.occ
      (r.state = .off → v = { r with senders := young }) ∧
      (r.state ≠ .off →
        v = { r with
          senders := young, settings := set, reads := 0, stall := v.stall, drain := v.drain, state := v.state,
          ramp := v.ramp, lastT := v.lastT } ∧
        v.stall = (if 0 < r.occ ∧ r.reads = 0 then min 255 (r.stall + 1) else 0) ∧
        v.lastT = sojourn r.occ v.drain ∧
        (sl ≤ v.stall → v.state = .stalled ∧ v.drain = r.drain ∧ v.ramp = min r.ramp set.ml) ∧
        (v.stall < sl → v.drain = drainUpdate r.drain r.reads set.dw ∧
          (incast → v.state = .incast ∧ v.ramp = min (r.ramp + 1) set.ml) ∧
          (¬incast → set.tl / 2 ^ r.ramp ≤ v.lastT → v.state = .congested ∧ v.ramp = min (r.ramp - 1) set.ml) ∧
          (¬incast → v.lastT < set.tl / 2 ^ r.ramp → v.state = .clear ∧ v.ramp = min (r.ramp - 1) set.ml)))

/-- R73, R174, R176: an expiry flags INCAST_ON and STALL_ON on a line exactly for the rings that enter the state and whose
alert group, as taken at the expiry, is that line; the line's other flags and its settings stay. In a pulse mode an
enabled flag that goes from clear to set starts a pulse where none runs, at the mode's level and with the line's width,
and otherwise the line's pulse stays as it was. -/
def Obligations.ExpiryEventsFlagTheirLines : Prop :=
  ∀ s : State, s.sje.timer ≠ none →
    ∃ t : State, exec .epochExpiry s = .next t ∧ ∀ l : Fin 4,
      (t.alerts[l].flags.getLsbD 0 = true ↔ s.alerts[l].flags.getLsbD 0 = true ∨
        ∃ k : Fin 64, (s.ring k).state ≠ .incast ∧ (t.ring k).state = .incast ∧
          (t.ring k).settings.alertGroup = l) ∧
      (t.alerts[l].flags.getLsbD 1 = true ↔ s.alerts[l].flags.getLsbD 1 = true ∨
        ∃ k : Fin 64, (s.ring k).state ≠ .stalled ∧ (t.ring k).state = .stalled ∧
          (t.ring k).settings.alertGroup = l) ∧
      (∀ i, 2 ≤ i → t.alerts[l].flags.getLsbD i = s.alerts[l].flags.getLsbD i) ∧
      t.alerts[l].mode = s.alerts[l].mode ∧ t.alerts[l].width = s.alerts[l].width ∧
      t.alerts[l].mask = s.alerts[l].mask ∧
      let starts := s.alerts[l].pulse = none ∧ ∃ i, s.alerts[l].flags.getLsbD i = false ∧
        t.alerts[l].flags.getLsbD i = true ∧ s.alerts[l].mask.getLsbD i = true
      (starts → s.alerts[l].mode = .pulseHigh →
        t.alerts[l].pulse = some { level := true, width := s.alerts[l].width }) ∧
      (starts → s.alerts[l].mode = .pulseLow →
        t.alerts[l].pulse = some { level := false, width := s.alerts[l].width }) ∧
      (¬starts ∨ s.alerts[l].mode = .level ∨ s.alerts[l].mode = .inverted → t.alerts[l].pulse = s.alerts[l].pulse)

/-- R133: a refresh timer expiry raises the backlog below 8, counts an overrun at 8, and reloads the timer with the staged
interval, clamped. R124, R134: a refresh's completion frees the channel and has no other effect. -/
def Obligations.RefreshesComeDueAndComplete : Prop :=
  ∀ s : State,
    let interval := max 10 (min 100 s.swu.stagedRefresh)
    (∀ ns, s.dcc.inFlight = some { op := .refresh, duration := ns } →
      exec .refreshCompletion s = .next (State.settle { s with dcc.inFlight := none })) ∧
    (s.dcc.refreshTimer ≠ none → s.dcc.backlog < 8 → exec .refreshTimerExpiry s = .next (State.settle
      { s with dcc := { s.dcc with backlog := s.dcc.backlog + 1, refreshInterval := interval,
                                   refreshTimer := some interval } })) ∧
    (s.dcc.refreshTimer ≠ none → 8 ≤ s.dcc.backlog → exec .refreshTimerExpiry s = .next (State.settle
      { s with
        dcc := { s.dcc with refreshInterval := interval, refreshTimer := some interval }
        counters.refreshOverruns := bump s.counters.refreshOverruns 1 }))

/-- R136: the expiry of a running quiet timer makes the timer expired, whatever the state of the channel and whatever is
queued, held, owed or in flight, and what settling does with an expired timer follows (`EventsSettle`). With every other
quiet condition met the channel enters QUIET, every row closed and the refresh timer stopped; in any other state of the
channel, with work queued, a cell held, an operation in flight or a backlog, it stays out of it. A timer that does not run
does not expire: the command then changes nothing (log entry 2). -/
def Obligations.QuietTimerExpirySettlesTheExpiredTimer : Prop :=
  ∀ s : State,
    let expired : State := { s with dcc.quietTimer := .expired }
    let c := s.dcc
    let others := c.quietDelay ≠ 0 ∧ s.rfe.rq = [] ∧ c.readQ = [] ∧ c.writeQ = [] ∧ c.inFlight = none ∧
      s.hst.slots = [] ∧ c.backlog = 0
    ((∀ us, c.quietTimer ≠ .running us) → exec .quietTimerExpiry s = .next s) ∧
    ∀ us, c.quietTimer = .running us →
      exec .quietTimerExpiry s = .next expired.settle ∧ expired.SettleKeeps expired.settle ∧
      (c.state = .run → others → c.inHand = none →
        expired.settle.hst = s.hst ∧
        expired.settle.dcc = { c with quietTimer := .expired, state := .quiet, banks := Vector.replicate 16 none,
                                      refreshTimer := none }) ∧
      (c.state = .run → ¬others → expired.settle.dcc.state = .run) ∧
      (c.state ≠ .run → ¬(c.state = .quiet ∧ s.HasDramWork) →
        expired.settle.dcc = { c with quietTimer := .expired } ∧ expired.settle.hst = s.hst)

/-! ### Completions and sendings -/

/-- R132, R88, R150: a read's completion places the array's bytes in its WAITING entry, rewritten if the entry carries
MARK, and the entry is READY after every other; the bytes of a read whose entry a link drop discarded are dropped. -/
def Obligations.ReadCompletionFillsItsEntry : Prop :=
  ∀ (s : State) (e : ReadEntry) (ns : Nat),
    (s.dcc.inFlight = some { op := .read e true, duration := ns } →
      exec .readCompletion s = .next (State.settle { s with dcc.inFlight := none })) ∧
    (s.dcc.inFlight = some { op := .read e false, duration := ns } → s.RequestsOk →
      let first := 256 * e.cell + match e.extent with
        | .cell => 0
        | .word w => 8 * w
      let bytes := (List.range e.extent.size).map (fun i => s.dram.byte (first + i))
      exec .readCompletion s = .next (State.settle
        { s with
          dcc.inFlight := none
          rfe.ready := s.rfe.ready ++ [e.entry]
          rfe.responses := s.rfe.responses.map (fun r =>
            if r.id = e.entry then { r with state := .ready, data := rewritten r.header bytes } else r) }))

/-- R123, R124: a write's completion changes the bytes it writes, the whole cell or the one word, and no other byte of the
array. -/
def Obligations.WriteCompletionChangesItsBytesOnly : Prop :=
  ∀ (s : State) (e : WriteEntry) (ns : Nat), s.dcc.inFlight = some { op := .write e, duration := ns } →
    ∃ u : State, exec .writeCompletion s = .next u.settle ∧
      u = { s with dcc.inFlight := none, dram := { s.dram with mem := u.dram.mem } } ∧
      let first := 256 * e.cell + match e.payload with
        | .full _ => 0
        | .partialWord w _ => 8 * w
      ∀ a, u.dram.byte a =
        if first ≤ a ∧ a < first + e.payload.bytes.length then e.payload.bytes.getD (a - first) 0 else s.dram.byte a

/-- R113, R118, R131: a retirement's completion writes the copied data to the array and takes the retirement out of hand.
A RETIRING slot becomes FREE, its claims voided and counted; a RETIRING_WRITTEN slot returns to HELD at the young end. The
last slot of a flush completes the soft reset. -/
def Obligations.RetirementCompletionFreesOrReturnsTheSlot : Prop :=
  ∀ (s : State) (r : Retirement) (ns : Nat) (x : Slot),
    s.dcc.inFlight = some { op := .retirement r, duration := ns } → s.hst.slot? r.slot = some x →
    let done : State := { s with
      dcc := { s.dcc with inFlight := none, inHand := none }
      dram := s.dram.store r.cell (.full r.data) }
    let others := s.hst.slots.filter (fun y => y.num != r.slot)
    let freed : State := { done with
      hst.slots := others
      rfe.responses := s.rfe.responses.map (fun e => if e.claim = some r.slot then { e with claim := none } else e)
      counters.retired := bump s.counters.retired 1 }
    (x.state = .retiring → s.hst.flush = false ∨ others ≠ [] →
      exec .retirementCompletion s = .next freed.settle) ∧
    (x.state = .retiring → s.hst.flush = true → others = [] →
      exec .retirementCompletion s = .next freed.completeSoftReset.settle) ∧
    (x.state = .retiringWritten → exec .retirementCompletion s = .next (State.settle
      { done with hst.slots := others ++ [{ x with state := .held, admitted := s.sje.epoch }] }))

/-- R152, R108, R109: at a sending the entry becomes FREE and its tag leaves the set, unless its status is TAG_REUSED. A
valid claim lowers the slot's remaining reads; at the last read of a HELD slot the slot is elided, every other claim on it
voided, and the last slot of a flush completes the soft reset. -/
def Obligations.ResponseSentActsOnItsClaim : Prop :=
  ∀ (s : State) (n : Nat) (frame : List Byte) (r : Response), s.clp.tx = .readData n frame → s.RequestsOk →
    r ∈ s.rfe.responses → r.id = n →
    let sent : State := { s with
      clp.tx := .idle
      rfe.responses := s.rfe.responses.filter (fun y => y.id != n)
      rfe.tags := if r.status = .tagReused then s.rfe.tags else s.rfe.tags.filter (fun g => g != r.tag) }
    (r.claim = none → exec .responseSent s = .next sent.settle) ∧
    ∀ (m : Nat) (x : Slot), r.claim = some m → s.hst.slot? m = some x →
      let others := s.hst.slots.filter (fun y => y.num != m)
      let elided : State := { sent with
        hst.slots := others
        rfe.responses := sent.rfe.responses.map (fun e => if e.claim = some m then { e with claim := none } else e)
        counters.elided := bump s.counters.elided 1 }
      (x.state ≠ .held ∨ x.remaining ≠ 1 → exec .responseSent s = .next (State.settle
        { sent with hst.slots := s.hst.slots.map (fun y =>
            if y.num = m then { y with remaining := y.remaining - 1 } else y) })) ∧
      (x.state = .held → x.remaining = 1 → s.hst.flush = false ∨ others ≠ [] →
        exec .responseSent s = .next elided.settle) ∧
      (x.state = .held → x.remaining = 1 → s.hst.flush = true → others = [] →
        exec .responseSent s = .next elided.completeSoftReset.settle)

/-- R174, R175, R176: each event has its own flag, in the order of the table of masks and flags. A running pulse drives
its own level. An event sets its flag; a pulse starts when an enabled flag goes from clear to set in a pulse mode while no
pulse runs, at the mode's level and with the line's width. A pulse's end leaves the line at the level its mode gives: the
condition's in a level mode, the resting level in a pulse mode. -/
def Obligations.PulsesStartAndEnd : Prop :=
  (∀ e : Event, e.bit = 1#7 <<<
    [Event.incastOn, .stallOn, .ringRefused, .storeMust, .poolEmpty, .linkFault, .range].idxOf e) ∧
  (∀ (e : Event) (l : AlertLine),
    let starts := l.pulse = none ∧ l.flags &&& e.bit = 0 ∧ l.mask &&& e.bit ≠ 0
    (l.raise e).flags = l.flags ||| e.bit ∧ (l.raise e).mode = l.mode ∧ (l.raise e).width = l.width ∧
    (l.raise e).mask = l.mask ∧
    (starts → l.mode = .pulseHigh → (l.raise e).pulse = some { level := true, width := l.width }) ∧
    (starts → l.mode = .pulseLow → (l.raise e).pulse = some { level := false, width := l.width }) ∧
    (¬starts ∨ l.mode = .level ∨ l.mode = .inverted → (l.raise e).pulse = l.pulse) ∧
    ∀ p, l.pulse = some p → l.driven = p.level) ∧
  ∀ (n : Fin 4) (s : State), ∃ t : State, exec (.pulseEnd n) s = .next t ∧
    t = { s with alerts := s.alerts.set n { s.alerts[n] with pulse := none } } ∧
    let condition := decide (s.alerts[n].flags &&& s.alerts[n].mask ≠ 0)
    (s.alerts[n].mode = .level → t.alerts[n].driven = condition) ∧
    (s.alerts[n].mode = .inverted → t.alerts[n].driven = !condition) ∧
    (s.alerts[n].mode = .pulseHigh → t.alerts[n].driven = false) ∧
    (s.alerts[n].mode = .pulseLow → t.alerts[n].driven = true)

/-! ### What follows an event by itself -/

/-- R124, R136, R140, R151: what follows an event by itself touches only the states of the link, the channel, the
transmitter, the response entries and the slots. In DOWN the link starts training once the channel has left INIT and all
lanes are locked. In QUIET the channel goes to WAKING for DRAM work alone; in INIT and WAKING, and with an operation in
flight, it does nothing; free in RUN, it enters QUIET when every condition of R136 holds, and otherwise makes the arbiter's
choice. Afterwards nothing more can follow: no such link is left in DOWN, no work in QUIET, no work at a free channel in
RUN, no quiet conditions in RUN, and no frame to send at an idle transmitter in UP. That these are tested after every
event, in one order, is log entry 13, and so after a link drop as well is log entry 18; the number of the attempt is log
entry 15. -/
def Obligations.EventsSettle : Prop :=
  ∀ s : State,
    let t := s.settle
    let c := s.dcc
    let trains := s.clp.state = .down ∧ c.state ≠ .init ∧ s.clp.lanes = 0xFF
    s.SettleKeeps t ∧ t.settle = t ∧
    (trains → t.clp = { s.clp with state := .training, attempt := 1 }) ∧
    (¬trains → t.clp.state = s.clp.state ∧ t.clp.attempt = s.clp.attempt) ∧
    (c.state = .quiet → t.hst = s.hst ∧ (s.HasDramWork → t.dcc = { c with state := .waking }) ∧
      (¬s.HasDramWork → t.dcc = c)) ∧
    (c.state = .init ∨ c.state = .waking ∨ c.inFlight ≠ none ∧ c.state ≠ .quiet → t.dcc = c ∧ t.hst = s.hst) ∧
    (c.state = .run → s.QuietConditions → c.inHand = none → t.hst = s.hst ∧
      t.dcc = { c with state := .quiet, banks := Vector.replicate 16 none, refreshTimer := none }) ∧
    (c.state = .run → c.inFlight = none → ¬s.QuietConditions →
      t.dcc = s.arbitrate.dcc ∧ t.hst = s.arbitrate.hst) ∧
    ¬(t.clp.state = .down ∧ t.dcc.state ≠ .init ∧ t.clp.lanes = 0xFF) ∧
    ¬(t.dcc.state = .quiet ∧ t.HasDramWork) ∧
    ¬(t.dcc.state = .run ∧ t.QuietConditions) ∧
    (t.dcc.state = .run → t.dcc.inFlight = none →
      ¬t.HasDramWork ∧ t.dcc.backlog = 0 ∧ ∀ r ∈ t.dcc.inHand, r.urgency = .none) ∧
    (s.EntriesOk → t.clp.state = .up → t.clp.tx = .idle → t.clp.owed = 0 ∧ t.rfe.ready = [])

/-- R151, R143, R178: the transmitter of a link in UP that is idle chooses a CREDIT frame if credits are owed and the frame
before was none, else a READ_DATA frame of the entry that became READY first, else a CREDIT frame if credits are owed,
else nothing. A CREDIT frame carries the whole owed count, which falls to 0. A READ_DATA frame carries status, extent, tag
and data as they stand, and its entry is SENDING. Each is spelled with its four check bytes. Outside UP, or with a frame
under way, nothing is chosen. The end of a CREDIT frame frees the transmitter and has no other effect. -/
def Obligations.TransmitterChoosesTheNextFrame : Prop :=
  ∀ s : State,
    let t := s.settle
    let framed := fun (body : List Byte) =>
      body ++ (List.range 4).map (fun i => BitVec.ofNat 8 (crcWord body / 256 ^ i))
    (∀ frame, s.clp.tx = .credit frame →
      exec .creditFrameSent s = .next (State.settle { s with clp.tx := .idle })) ∧
    (s.clp.state ≠ .up ∨ s.clp.tx ≠ .idle → t.clp.tx = s.clp.tx ∧ t.clp.owed = s.clp.owed ∧
      t.clp.lastWasCredit = s.clp.lastWasCredit ∧ t.rfe = s.rfe) ∧
    (s.clp.state = .up → s.clp.tx = .idle →
      (0 < s.clp.owed → s.clp.lastWasCredit = false ∨ s.rfe.ready = [] → t.rfe = s.rfe ∧
        t.clp = { s.clp with tx := .credit (framed [1, BitVec.ofNat 8 s.clp.owed, 0, 0]), owed := 0,
                             lastWasCredit := true }) ∧
      (s.clp.owed = 0 ∨ s.clp.lastWasCredit = true → ∀ n rest r, s.EntriesOk → s.rfe.ready = n :: rest →
        r ∈ s.rfe.responses → r.id = n →
        let status := [Status.ok, .range, .tagReused].idxOf r.status
        let extent := if r.extent = .cell then 0 else 1
        t.clp = { s.clp with tx := .readData n (framed ([BitVec.ofNat 8 (4 * status + 16 * extent), r.tag, 0, 0] ++ r.data)),
                             lastWasCredit := false } ∧
        t.rfe = { s.rfe with
          ready := rest
          responses := s.rfe.responses.map (fun e => if e.id = n then { e with state := .sending } else e) }) ∧
      (s.clp.owed = 0 → s.rfe.ready = [] → t.clp = s.clp ∧ t.rfe = s.rfe))

/-- R123, R124, R128, R129: the choice of a free channel in RUN, rank by rank. A read or write chosen leaves its queue,
opens its row in its bank, and is in flight for 6 ns or 20 ns; that the row is open, and the entry gone, from the choice on
is the model's reading (log entry 11). At rank 3 the read chosen is eligible (no write to its
cell was taken before it), boosted if any eligible read is, a row hit if any of its class is, and the oldest of those. -/
def Obligations.ArbiterWalksTheRanks : Prop :=
  (∀ cell, (bankOf cell).val = cell / 8 % 16) ∧
  (∀ (c : Channel) (e : ReadEntry) (w : WriteEntry),
    c.beginRead e =
      { c with readQ := c.readQ.filter (fun x => x.seq != e.seq) }.accessing (.read e false) e.cell ∧
    c.beginWrite w = { c with writeQ := c.writeQ.filter (fun x => x.seq != w.seq) }.accessing (.write w) w.cell) ∧
  (∀ c : Channel, c.OrderOk →
    let eligible := fun (x : ReadEntry) => x ∈ c.readQ ∧ ∀ w ∈ c.writeQ, w.cell = x.cell → x.seq ≤ w.seq
    let hit := fun (x : ReadEntry) => c.banks[bankOf x.cell] = some (x.cell / 128)
    (c.chosenRead? = none ↔ ∀ x, ¬eligible x) ∧
    ∀ e, c.chosenRead? = some e ↔ eligible e ∧ (∀ x, eligible x → x.boost = true → e.boost = true) ∧
      (∀ x, eligible x → x.boost = e.boost → hit x → hit e) ∧
      ∀ x, eligible x → x.boost = e.boost → (hit x ↔ hit e) → e.seq ≤ x.seq) ∧
  ∀ s : State, s.dcc.state = .run → s.dcc.inFlight = none →
    let rank := s.retirementRank
    let refreshed : State := { s with
      dcc := { s.dcc with backlog := s.dcc.backlog - 1, banks := Vector.replicate 16 none,
                          inFlight := some { op := .refresh, duration := 160 } } }
    (8 ≤ s.dcc.backlog → s.arbitrate = refreshed) ∧
    (s.dcc.backlog < 8 → rank = .must → s.arbitrate = s.retire .must) ∧
    (s.dcc.backlog < 8 → rank ≠ .must → ∀ e, s.dcc.chosenRead? = some e →
      s.arbitrate = { s with dcc := s.dcc.beginRead e }) ∧
    (s.dcc.backlog < 8 → rank ≠ .must → s.dcc.chosenRead? = none →
      (4 ≤ s.dcc.backlog → s.arbitrate = refreshed) ∧
      (s.dcc.backlog < 4 → ∀ w ws, s.dcc.writeQ = w :: ws → s.arbitrate = { s with dcc := s.dcc.beginWrite w }) ∧
      (s.dcc.backlog < 4 → s.dcc.writeQ = [] →
        (rank = .need → s.arbitrate = s.retire .need) ∧
        (rank ≠ .need → 1 ≤ s.dcc.backlog → s.arbitrate = refreshed) ∧
        (rank ≠ .need → s.dcc.backlog = 0 →
          s.arbitrate = if rank = .may then s.retire .may else s)))

/-- R110, R112, R130, R131: the urgency the store answers; the rank of a retirement in hand, the higher of the urgency at
which it was chosen and the urgency now; and the choice of a retirement. With none in hand the oldest HELD slot becomes
RETIRING in its place, and its data are copied with the urgency of the choice; with one in hand no other is chosen. The
operation performed is the oldest queued read or write of the retirement's cell, and once none is queued the retirement
write itself. That each opens its row in its bank at the choice, the retirement write as well, is the model's reading (log
entry 11). -/
def Obligations.RetirementTakesTheOldestHeldSlot : Prop :=
  (∀ s : State,
    let held := s.hst.slots.filter (fun x => x.state = .held)
    let fill := s.hst.slots.length
    let level := fun (u : Urgency) => [Urgency.none, .may, .need, .must].idxOf u
    (held = [] → s.urgency = .none) ∧
    (∀ oldest others, held = oldest :: others → s.urgency =
      if max s.hst.highMark s.hst.lowMark ≤ fill ∨ s.hst.flush = true then .must
      else if s.hst.lowMark ≤ fill ∨ s.hst.ageLimit < (s.sje.epoch - oldest.admitted).toNat then .need
      else .may) ∧
    (s.dcc.inHand = none → s.retirementRank = s.urgency) ∧
    (∀ r, s.dcc.inHand = some r → level s.retirementRank = max (level r.urgency) (level s.urgency) ∧
      ∀ u, s.retire u = { s with dcc := s.dcc.beginRetirement r }) ∧
    ∀ u oldest others, s.dcc.inHand = none → held = oldest :: others →
      let r : Retirement := { slot := oldest.num, cell := oldest.cell, data := oldest.data, urgency := u }
      s.retire u = { s with
        hst.slots := s.hst.slots.map (fun x => if x.num = oldest.num then { x with state := .retiring } else x)
        dcc := { s.dcc with inHand := some r }.beginRetirement r }) ∧
  ∀ (c : Channel) (r : Retirement), c.OrderOk →
    ((∀ e ∈ c.readQ, e.cell ≠ r.cell) → (∀ w ∈ c.writeQ, w.cell ≠ r.cell) →
      c.beginRetirement r = c.accessing (.retirement r) r.cell) ∧
    (∀ e ∈ c.readQ, e.cell = r.cell → (∀ x ∈ c.readQ, x.cell = r.cell → e.seq ≤ x.seq) →
      (∀ w ∈ c.writeQ, w.cell = r.cell → e.seq < w.seq) → c.beginRetirement r = c.beginRead e) ∧
    ∀ w ∈ c.writeQ, w.cell = r.cell → (∀ x ∈ c.writeQ, x.cell = r.cell → w.seq ≤ x.seq) →
      (∀ e ∈ c.readQ, e.cell = r.cell → w.seq < e.seq) → c.beginRetirement r = c.beginWrite w

/-- R129, R130, R153: no operation begins ahead of an older one on the same cell. A read begins with no older write to its
cell queued, a write with no older read or write of its cell queued, and a retirement write with none of its cell queued
at all. -/
def Obligations.SameCellOrderIsKept : Prop :=
  ∀ (s : State) (f : InFlight), s.dcc.OrderOk → s.dcc.state = .run → s.dcc.inFlight = none →
    s.arbitrate.dcc.inFlight = some f →
    (∀ e dropped, f.op = .read e dropped →
      e ∈ s.dcc.readQ ∧ ∀ w ∈ s.dcc.writeQ, w.cell = e.cell → e.seq < w.seq) ∧
    (∀ w, f.op = .write w → w ∈ s.dcc.writeQ ∧ (∀ e ∈ s.dcc.readQ, e.cell = w.cell → w.seq < e.seq) ∧
      ∀ v ∈ s.dcc.writeQ, v.cell = w.cell → w.seq ≤ v.seq) ∧
    ∀ r, f.op = .retirement r → (∀ e ∈ s.dcc.readQ, e.cell ≠ r.cell) ∧ ∀ w ∈ s.dcc.writeQ, w.cell ≠ r.cell

/-! ### Invariants of every step -/

/-- The array keeps its canonical form. -/
def Obligations.MemoryStaysCanonical : Prop :=
  ∀ s t : State, s.dram.mem.wf → step s = .next t → t.dram.mem.wf

/-- R18, R25, R30, R41, R57, R61, R68, R77: every ring's geometry, positions, records, senders, estimate, credit and
settings (each within its range of R57) stay in their ranges, and an OFF ring stays empty. -/
def Obligations.RingsStayInRange : Prop :=
  ∀ s t : State, s.RingsOk → step s = .next t → t.RingsOk

/-- R31: the packet records in all ring lists plus the free pool always number 4096. -/
def Obligations.PoolAlwaysNumbers4096 : Prop :=
  ∀ s t : State, s.PoolOk → step s = .next t → t.PoolOk

/-- R97, R109, R112, R130: at most one slot for each cell, distinct slot numbers, only the slot of the retirement in hand
away from HELD, and every claim on a slot that is not FREE. -/
def Obligations.StoreStaysConsistent : Prop :=
  ∀ s t : State, s.StoreOk → step s = .next t → t.StoreOk

/-- R125, R146, R149, R150, R151: tags, response entries, ready order, queued reads, the frame under way and the take
order of the queues stay in step with one another. -/
def Obligations.RequestsStayConsistent : Prop :=
  ∀ s t : State, s.RequestsOk → step s = .next t → t.RequestsOk

/-- R96, R126, R142, R149: requests, slots, queued writes, retirements and response entries keep the bytes of their kind
or extent. -/
def Obligations.SizesStayExact : Prop :=
  ∀ s t : State, s.RequestsOk → s.SizesOk → step s = .next t → t.SizesOk

/-- R16, R36, R55, R135, R140, R154: in INIT and outside UP the part holds nothing it should not, and active regions stay
below the service area and apart from one another. -/
def Obligations.InitAndLinkStayClean : Prop :=
  ∀ s t : State, s.InitOk → s.LinkOk → s.RegionsOk → step s = .next t → t.InitOk ∧ t.LinkOk ∧ t.RegionsOk

/-- R44, R54, R59, R99, R125, R126, R133, R136, R143, R144: the queues, counts and device settings stay within their
limits. -/
def Obligations.LimitsHold : Prop :=
  ∀ s t : State, s.QueuesOk → s.SettingsOk → step s = .next t → t.QueuesOk ∧ t.SettingsOk

/-- R121: while no counter has saturated, every step but a counter clear keeps the sum of all rings' admitted counters
equal to elided plus retired plus fill. A step clears the counters where its command takes the head of the Request Queue
and the head carries a counter-clear word; a completion, a sending or an expiry while that head waits does not. -/
def Obligations.StoreCountersBalance : Prop :=
  ∀ s t : State, s.StoreOk → s.BalanceOk → t.Unsaturated → step s = .next t →
    (∀ c ∈ s.pending.head?, TakesHead c → s.headCarries isCounterClearWord = true → t.rfe.rq = s.rfe.rq) →
    t.BalanceOk

/-- The state after a power-on reset meets every invariant. -/
def Obligations.ResetMeetsTheInvariants : Prop :=
  let s := State.reset
  s.dram.mem.wf ∧ s.RingsOk ∧ s.PoolOk ∧ s.StoreOk ∧ s.RequestsOk ∧ s.SizesOk ∧ s.InitOk ∧ s.LinkOk ∧ s.RegionsOk ∧
    s.QueuesOk ∧ s.SettingsOk ∧ s.BalanceOk

/-- R53, R67, R75, R123, R179: the array changes only at the completion of a write or a retirement and at a power-on
reset, CAP only at a rise of RSTN and a power-on reset, the epoch number only at an expiry and a power-on reset, and the
estimate of a ring that stays active only at an expiry. -/
def Obligations.OnlyTheirEventsMoveThem : Prop :=
  ∀ (c : Instr) (s t : State), exec c s = .next t → (∀ cause, c ≠ .powerOnReset cause) →
    (c ≠ .writeCompletion → c ≠ .retirementCompletion → t.dram = s.dram) ∧
    ((∀ capsel, c ≠ .rstnRise capsel) → t.capacity = s.capacity) ∧
    (c ≠ .epochExpiry → t.sje.epoch = s.sje.epoch) ∧
    (c ≠ .epochExpiry → ∀ k : Fin 64, (s.ring k).state ≠ .off → (t.ring k).state ≠ .off →
      (t.ring k).estimate = (s.ring k).estimate)

/-! ### The estimator and the Mark Unit -/

/-- R61, R62: an update leaves D between its former value and 16·c. From above, D falls by (D − 16·c) / 2^DW rounded up,
and repeated epochs bring it down to 16·c exactly, where it stays; from below, it rises by the whole part of the quotient
and stops short by less than 2^DW. R63: the sojourn T. R65, R66: the share P between the effective thresholds, at most
256 for a peak share of at most 256. -/
def Obligations.DrainSojournAndShareFollowTheirFormulas : Prop :=
  (∀ d c dw : Nat,
    min d (16 * c) ≤ drainUpdate d c dw ∧ drainUpdate d c dw ≤ max d (16 * c) ∧
    (16 * c < d → drainUpdate d c dw < d) ∧
    (16 * c ≤ d → drainUpdate d c dw = d - (d - 16 * c + (2 ^ dw - 1)) / 2 ^ dw) ∧
    (16 * c ≤ d → ∃ n, ∀ m, n ≤ m → (fun x => drainUpdate x c dw)^[m] d = 16 * c) ∧
    (d ≤ 16 * c → drainUpdate d c dw = d + (16 * c - d) / 2 ^ dw) ∧
    (d ≤ 16 * c → 16 * c - d < 2 ^ dw → drainUpdate d c dw = d)) ∧
  (∀ q d : Nat, (q = 0 → sojourn q d = 0) ∧ (0 < q → d = 0 → sojourn q d = 65535) ∧
    (0 < q → 0 < d → sojourn q d = min 65535 (256 * q / d))) ∧
  ∀ (r : Ring) (q : Nat), r.settings.tl < r.settings.th →
    let t := sojourn q r.drain
    let low := r.settings.tl / 2 ^ r.ramp
    let high := r.settings.th / 2 ^ r.ramp
    (t < low → r.shareAt q = 0) ∧ (high ≤ t → r.shareAt q = 256) ∧
    (low ≤ t → t < high → r.shareAt q = r.settings.ps * (t - low) / (high - low)) ∧
    (r.settings.ps ≤ 256 → r.shareAt q ≤ 256)

/-- R12, R79: the kind of a packet for marking, and the decision and the new A for each kind, policy and sum of A and P,
with A left in 0..255. A decision uses the record's kind, the ring's policy, A, and the share P of the Q handed to it.
After `n` decisions on markable packets with one share P and a starting credit A0, floor((A0 + n·P) / 256) have been
marked, and A stands at (A0 + n·P) mod 256. -/
def Obligations.DecisionsFollowTheTableAndRunsCountTheShare : Prop :=
  (∀ (exempt : Bool) (kind : FrameKind) (ecn : Ecn),
    (exempt = true → markKind exempt kind ecn = .exempt) ∧
    (exempt = false → kind = .other ∨ ecn = .notEct → markKind exempt kind ecn = .notMarkable) ∧
    (exempt = false → kind ≠ .other → ecn = .ect0 ∨ ecn = .ect1 → markKind exempt kind ecn = .markable) ∧
    (exempt = false → kind ≠ .other → ecn = .ce → markKind exempt kind ecn = .alreadyCe)) ∧
  (∀ (kind : MarkKind) (policy : Policy) (a p : Nat),
    decideMark .exempt policy a p = { decision := .pass, credit := a } ∧
    (kind ≠ .exempt → a + p < 256 → decideMark kind policy a p = { decision := .pass, credit := a + p }) ∧
    (256 ≤ a + p →
      decideMark .markable policy a p = { decision := .mark, credit := a + p - 256 } ∧
      decideMark .alreadyCe policy a p = { decision := .ceAlready, credit := a + p - 256 } ∧
      decideMark .notMarkable .spend a p = { decision := .unmarkable, credit := a + p - 256 } ∧
      decideMark .notMarkable .carry a p = { decision := .unmarkable, credit := 255 }) ∧
    (a ≤ 255 → p ≤ 256 → (decideMark kind policy a p).credit ≤ 255)) ∧
  (∀ (r : Ring) (x : PacketRecord) (q : Nat),
    r.verdict x q = decideMark (markKind x.exempt x.kind x.ecn) r.settings.policy r.credit (r.shareAt q)) ∧
  ∀ (policy : Policy) (share a0 n : Nat), share ≤ 256 → a0 ≤ 255 →
    (fun (x : Nat × Nat) =>
      let v := decideMark .markable policy x.2 share
      (x.1 + (if v.decision = .mark then 1 else 0), v.credit))^[n] (0, a0) =
      ((a0 + n * share) / 256, (a0 + n * share) % 256)

/-- R88 to R92: the rewrite of a response is that of the frame kind and at the header offset its entry holds, and without
them the bytes are as stored. The IPv4 rewrite changes cell bytes o+1, o+10 and o+11 alone, sets the two low bits of the
TOS byte, never writes the checksum FFFFh, and leaves the ones-complement sum of the header's `h` 16-bit words as it was,
where that is not 0: a right checksum (the sum is then FFFFh) leaves right, and a wrong one wrong by the same amount. The
IPv6 rewrite sets bits 5..4 of
cell byte o+1 and changes nothing else. A sum of 16-bit words has its carry added back at the bottom. -/
def Obligations.RewriteChangesItsBytesAndKeepsTheChecksum : Prop :=
  (∀ x y : BitVec 16, (onesAdd x y).toNat =
    if x.toNat + y.toNat < 65536 then x.toNat + y.toNat else x.toNat + y.toNat - 65535) ∧
  (∀ data : List Byte, rewritten none data = data ∧
    ∀ o, rewritten (some { kind := .ipv4, offset := o }) data = rewriteIpv4 o data ∧
      rewritten (some { kind := .ipv6, offset := o }) data = rewriteIpv6 o data) ∧
  (∀ (data : List Byte) (o h : Nat), 10 ≤ h → o + 2 * h ≤ data.length →
    let after := rewriteIpv4 o data
    let header := fun (bytes : List Byte) => (List.range h).map (fun i => beGroup bytes (o + 2 * i))
    after.length = data.length ∧
    (∀ i, i ≠ o + 1 → i ≠ o + 10 → i ≠ o + 11 → byteAt after i = byteAt data i) ∧
    byteAt after (o + 1) = byteAt data (o + 1) ||| 3 ∧
    beGroup after (o + 10) ≠ 0xFFFF#16 ∧
    ((header data).foldl onesAdd 0 ≠ 0 → (header after).foldl onesAdd 0 = (header data).foldl onesAdd 0)) ∧
  ∀ (data : List Byte) (o : Nat), o + 1 < data.length →
    (rewriteIpv6 o data).length = data.length ∧
    (∀ i, i ≠ o + 1 → byteAt (rewriteIpv6 o data) i = byteAt data i) ∧
    byteAt (rewriteIpv6 o data) (o + 1) = byteAt data (o + 1) ||| 0x30

/-- R122: the held counts of the 64 rings make the fill. -/
def Obligations.HeldCountsMakeTheFill : Prop :=
  ∀ h : HoldStore, ((List.finRange 64).map h.heldFor).sum = h.fill
end

