-- ==== Sys2Proof/Laws/State.lean ====
section
/-! SUPPORT. For each update of the state, one lemma per field: what the update leaves, and what it puts there. All are
true by `rfl`, so that no proof unfolds a record update. -/

namespace Sys2Proof.Machine

/-! ### Rings -/

@[simp] theorem State.ring_setRing_self (s : State) (k : Fin 64) (r : Ring) : (s.setRing k r).ring k = r := by
  simp [State.ring, State.setRing]

theorem State.ring_setRing_of_ne (s : State) {j k : Fin 64} (r : Ring) (h : j ≠ k) :
    (s.setRing k r).ring j = s.ring j := by
  have : k.val ≠ j.val := fun e => h (Fin.ext e.symm)
  simp [State.ring, State.setRing, this]

theorem State.ring_setRing (s : State) (j k : Fin 64) (r : Ring) :
    (s.setRing k r).ring j = if j = k then r else s.ring j := by
  by_cases h : j = k
  · subst h; simp
  · simp [h, State.ring_setRing_of_ne]

@[simp] theorem State.setRing_setRing (s : State) (k : Fin 64) (r r' : Ring) :
    (s.setRing k r).setRing k r' = s.setRing k r' := by
  simp [State.setRing]

theorem State.setRing_ring (s : State) (k : Fin 64) : s.setRing k (s.ring k) = s := by
  simp [State.ring, State.setRing]

theorem State.ring_of_rings {s t : State} (h : t.rings = s.rings) (k : Fin 64) : t.ring k = s.ring k := by
  simp [State.ring, h]

/-! ### `State.setRing` -/

section

variable (s : State) (k : Fin 64) (r : Ring)

@[simp] theorem State.setRing_rstnLow : (s.setRing k r).rstnLow = s.rstnLow := rfl
@[simp] theorem State.setRing_capacity : (s.setRing k r).capacity = s.capacity := rfl
@[simp] theorem State.setRing_clp : (s.setRing k r).clp = s.clp := rfl
@[simp] theorem State.setRing_rfe : (s.setRing k r).rfe = s.rfe := rfl
@[simp] theorem State.setRing_poolFree : (s.setRing k r).poolFree = s.poolFree := rfl
@[simp] theorem State.setRing_sje : (s.setRing k r).sje = s.sje := rfl
@[simp] theorem State.setRing_fanInWindow : (s.setRing k r).fanInWindow = s.fanInWindow := rfl
@[simp] theorem State.setRing_swu : (s.setRing k r).swu = s.swu := rfl
@[simp] theorem State.setRing_hst : (s.setRing k r).hst = s.hst := rfl
@[simp] theorem State.setRing_dcc : (s.setRing k r).dcc = s.dcc := rfl
@[simp] theorem State.setRing_dram : (s.setRing k r).dram = s.dram := rfl
@[simp] theorem State.setRing_alerts : (s.setRing k r).alerts = s.alerts := rfl
@[simp] theorem State.setRing_counters : (s.setRing k r).counters = s.counters := rfl
@[simp] theorem State.setRing_pending : (s.setRing k r).pending = s.pending := rfl
@[simp] theorem State.setRing_rings : (s.setRing k r).rings = s.rings.set k r := rfl

end

/-! ### `State.raiseAll` -/

section

variable (s : State) (e : Event)

@[simp] theorem State.raiseAll_rstnLow : (s.raiseAll e).rstnLow = s.rstnLow := rfl
@[simp] theorem State.raiseAll_capacity : (s.raiseAll e).capacity = s.capacity := rfl
@[simp] theorem State.raiseAll_clp : (s.raiseAll e).clp = s.clp := rfl
@[simp] theorem State.raiseAll_rfe : (s.raiseAll e).rfe = s.rfe := rfl
@[simp] theorem State.raiseAll_rings : (s.raiseAll e).rings = s.rings := rfl
@[simp] theorem State.raiseAll_poolFree : (s.raiseAll e).poolFree = s.poolFree := rfl
@[simp] theorem State.raiseAll_sje : (s.raiseAll e).sje = s.sje := rfl
@[simp] theorem State.raiseAll_fanInWindow : (s.raiseAll e).fanInWindow = s.fanInWindow := rfl
@[simp] theorem State.raiseAll_swu : (s.raiseAll e).swu = s.swu := rfl
@[simp] theorem State.raiseAll_hst : (s.raiseAll e).hst = s.hst := rfl
@[simp] theorem State.raiseAll_dcc : (s.raiseAll e).dcc = s.dcc := rfl
@[simp] theorem State.raiseAll_dram : (s.raiseAll e).dram = s.dram := rfl
@[simp] theorem State.raiseAll_counters : (s.raiseAll e).counters = s.counters := rfl
@[simp] theorem State.raiseAll_pending : (s.raiseAll e).pending = s.pending := rfl
@[simp] theorem State.raiseAll_alerts : (s.raiseAll e).alerts = s.alerts.map (AlertLine.raise e) := rfl
@[simp] theorem State.raiseAll_ring (j : Fin 64) : (s.raiseAll e).ring j = s.ring j := rfl

end

/-! ### `State.raiseOn` -/

section

variable (s : State) (l : Fin 4) (e : Event)

@[simp] theorem State.raiseOn_rstnLow : (s.raiseOn l e).rstnLow = s.rstnLow := rfl
@[simp] theorem State.raiseOn_capacity : (s.raiseOn l e).capacity = s.capacity := rfl
@[simp] theorem State.raiseOn_clp : (s.raiseOn l e).clp = s.clp := rfl
@[simp] theorem State.raiseOn_rfe : (s.raiseOn l e).rfe = s.rfe := rfl
@[simp] theorem State.raiseOn_rings : (s.raiseOn l e).rings = s.rings := rfl
@[simp] theorem State.raiseOn_poolFree : (s.raiseOn l e).poolFree = s.poolFree := rfl
@[simp] theorem State.raiseOn_sje : (s.raiseOn l e).sje = s.sje := rfl
@[simp] theorem State.raiseOn_fanInWindow : (s.raiseOn l e).fanInWindow = s.fanInWindow := rfl
@[simp] theorem State.raiseOn_swu : (s.raiseOn l e).swu = s.swu := rfl
@[simp] theorem State.raiseOn_hst : (s.raiseOn l e).hst = s.hst := rfl
@[simp] theorem State.raiseOn_dcc : (s.raiseOn l e).dcc = s.dcc := rfl
@[simp] theorem State.raiseOn_dram : (s.raiseOn l e).dram = s.dram := rfl
@[simp] theorem State.raiseOn_counters : (s.raiseOn l e).counters = s.counters := rfl
@[simp] theorem State.raiseOn_pending : (s.raiseOn l e).pending = s.pending := rfl
@[simp] theorem State.raiseOn_alerts : (s.raiseOn l e).alerts = s.alerts.set l (s.alerts[l].raise e) := rfl
@[simp] theorem State.raiseOn_ring (j : Fin 64) : (s.raiseOn l e).ring j = s.ring j := rfl

end

/-! ### `State.popHead` -/

section

variable (s : State) (rest : List Request)

@[simp] theorem State.popHead_rstnLow : (s.popHead rest).rstnLow = s.rstnLow := rfl
@[simp] theorem State.popHead_capacity : (s.popHead rest).capacity = s.capacity := rfl
@[simp] theorem State.popHead_rings : (s.popHead rest).rings = s.rings := rfl
@[simp] theorem State.popHead_poolFree : (s.popHead rest).poolFree = s.poolFree := rfl
@[simp] theorem State.popHead_sje : (s.popHead rest).sje = s.sje := rfl
@[simp] theorem State.popHead_fanInWindow : (s.popHead rest).fanInWindow = s.fanInWindow := rfl
@[simp] theorem State.popHead_swu : (s.popHead rest).swu = s.swu := rfl
@[simp] theorem State.popHead_hst : (s.popHead rest).hst = s.hst := rfl
@[simp] theorem State.popHead_dcc : (s.popHead rest).dcc = s.dcc := rfl
@[simp] theorem State.popHead_dram : (s.popHead rest).dram = s.dram := rfl
@[simp] theorem State.popHead_alerts : (s.popHead rest).alerts = s.alerts := rfl
@[simp] theorem State.popHead_counters : (s.popHead rest).counters = s.counters := rfl
@[simp] theorem State.popHead_pending : (s.popHead rest).pending = s.pending := rfl
@[simp] theorem State.popHead_rfe : (s.popHead rest).rfe = { s.rfe with rq := rest } := rfl
@[simp] theorem State.popHead_clp : (s.popHead rest).clp = { s.clp with owed := min 64 (s.clp.owed + 1) } := rfl
@[simp] theorem State.popHead_ring (j : Fin 64) : (s.popHead rest).ring j = s.ring j := rfl

end

/-! ### `State.rangeError` -/

section

variable (s : State)

@[simp] theorem State.rangeError_rstnLow : (s.rangeError).rstnLow = s.rstnLow := rfl
@[simp] theorem State.rangeError_capacity : (s.rangeError).capacity = s.capacity := rfl
@[simp] theorem State.rangeError_clp : (s.rangeError).clp = s.clp := rfl
@[simp] theorem State.rangeError_rfe : (s.rangeError).rfe = s.rfe := rfl
@[simp] theorem State.rangeError_rings : (s.rangeError).rings = s.rings := rfl
@[simp] theorem State.rangeError_poolFree : (s.rangeError).poolFree = s.poolFree := rfl
@[simp] theorem State.rangeError_sje : (s.rangeError).sje = s.sje := rfl
@[simp] theorem State.rangeError_fanInWindow : (s.rangeError).fanInWindow = s.fanInWindow := rfl
@[simp] theorem State.rangeError_swu : (s.rangeError).swu = s.swu := rfl
@[simp] theorem State.rangeError_hst : (s.rangeError).hst = s.hst := rfl
@[simp] theorem State.rangeError_dcc : (s.rangeError).dcc = s.dcc := rfl
@[simp] theorem State.rangeError_dram : (s.rangeError).dram = s.dram := rfl
@[simp] theorem State.rangeError_pending : (s.rangeError).pending = s.pending := rfl
@[simp] theorem State.rangeError_counters : (s.rangeError).counters =
    { s.counters with rangeErrors := bump s.counters.rangeErrors 1 } := rfl
@[simp] theorem State.rangeError_alerts : (s.rangeError).alerts = s.alerts.map (AlertLine.raise .range) := rfl
@[simp] theorem State.rangeError_ring (j : Fin 64) : (s.rangeError).ring j = s.ring j := rfl

end

/-! ### `State.addResponse` -/

section

variable (s : State) (r : Response)

@[simp] theorem State.addResponse_rstnLow : (s.addResponse r).rstnLow = s.rstnLow := rfl
@[simp] theorem State.addResponse_capacity : (s.addResponse r).capacity = s.capacity := rfl
@[simp] theorem State.addResponse_clp : (s.addResponse r).clp = s.clp := rfl
@[simp] theorem State.addResponse_rings : (s.addResponse r).rings = s.rings := rfl
@[simp] theorem State.addResponse_poolFree : (s.addResponse r).poolFree = s.poolFree := rfl
@[simp] theorem State.addResponse_sje : (s.addResponse r).sje = s.sje := rfl
@[simp] theorem State.addResponse_fanInWindow : (s.addResponse r).fanInWindow = s.fanInWindow := rfl
@[simp] theorem State.addResponse_swu : (s.addResponse r).swu = s.swu := rfl
@[simp] theorem State.addResponse_hst : (s.addResponse r).hst = s.hst := rfl
@[simp] theorem State.addResponse_dcc : (s.addResponse r).dcc = s.dcc := rfl
@[simp] theorem State.addResponse_dram : (s.addResponse r).dram = s.dram := rfl
@[simp] theorem State.addResponse_alerts : (s.addResponse r).alerts = s.alerts := rfl
@[simp] theorem State.addResponse_counters : (s.addResponse r).counters = s.counters := rfl
@[simp] theorem State.addResponse_pending : (s.addResponse r).pending = s.pending := rfl
@[simp] theorem State.addResponse_rfe_rq : (s.addResponse r).rfe.rq = s.rfe.rq := rfl
@[simp] theorem State.addResponse_rfe_responses : (s.addResponse r).rfe.responses = s.rfe.responses ++ [r] := rfl
@[simp] theorem State.addResponse_rfe_ready : (s.addResponse r).rfe.ready =
    if r.state = .ready then s.rfe.ready ++ [r.id] else s.rfe.ready := rfl
@[simp] theorem State.addResponse_rfe_tags : (s.addResponse r).rfe.tags =
    if r.status = .tagReused then s.rfe.tags else s.rfe.tags ++ [r.tag] := rfl
@[simp] theorem State.addResponse_ring (j : Fin 64) : (s.addResponse r).ring j = s.ring j := rfl

end

/-! ### `State.updateResponse` -/

section

variable (s : State) (n : Nat) (f : Response → Response)

@[simp] theorem State.updateResponse_rstnLow : (s.updateResponse n f).rstnLow = s.rstnLow := rfl
@[simp] theorem State.updateResponse_capacity : (s.updateResponse n f).capacity = s.capacity := rfl
@[simp] theorem State.updateResponse_clp : (s.updateResponse n f).clp = s.clp := rfl
@[simp] theorem State.updateResponse_rings : (s.updateResponse n f).rings = s.rings := rfl
@[simp] theorem State.updateResponse_poolFree : (s.updateResponse n f).poolFree = s.poolFree := rfl
@[simp] theorem State.updateResponse_sje : (s.updateResponse n f).sje = s.sje := rfl
@[simp] theorem State.updateResponse_fanInWindow : (s.updateResponse n f).fanInWindow = s.fanInWindow := rfl
@[simp] theorem State.updateResponse_swu : (s.updateResponse n f).swu = s.swu := rfl
@[simp] theorem State.updateResponse_hst : (s.updateResponse n f).hst = s.hst := rfl
@[simp] theorem State.updateResponse_dcc : (s.updateResponse n f).dcc = s.dcc := rfl
@[simp] theorem State.updateResponse_dram : (s.updateResponse n f).dram = s.dram := rfl
@[simp] theorem State.updateResponse_alerts : (s.updateResponse n f).alerts = s.alerts := rfl
@[simp] theorem State.updateResponse_counters : (s.updateResponse n f).counters = s.counters := rfl
@[simp] theorem State.updateResponse_pending : (s.updateResponse n f).pending = s.pending := rfl
@[simp] theorem State.updateResponse_rfe_rq : (s.updateResponse n f).rfe.rq = s.rfe.rq := rfl
@[simp] theorem State.updateResponse_rfe_ready : (s.updateResponse n f).rfe.ready = s.rfe.ready := rfl
@[simp] theorem State.updateResponse_rfe_tags : (s.updateResponse n f).rfe.tags = s.rfe.tags := rfl
@[simp] theorem State.updateResponse_rfe_responses : (s.updateResponse n f).rfe.responses =
    s.rfe.responses.map (fun r => if r.id = n then f r else r) := rfl
@[simp] theorem State.updateResponse_ring (j : Fin 64) : (s.updateResponse n f).ring j = s.ring j := rfl

end

/-! ### `State.voidClaims` -/

section

variable (s : State) (n : Nat)

@[simp] theorem State.voidClaims_rstnLow : (s.voidClaims n).rstnLow = s.rstnLow := rfl
@[simp] theorem State.voidClaims_capacity : (s.voidClaims n).capacity = s.capacity := rfl
@[simp] theorem State.voidClaims_clp : (s.voidClaims n).clp = s.clp := rfl
@[simp] theorem State.voidClaims_rings : (s.voidClaims n).rings = s.rings := rfl
@[simp] theorem State.voidClaims_poolFree : (s.voidClaims n).poolFree = s.poolFree := rfl
@[simp] theorem State.voidClaims_sje : (s.voidClaims n).sje = s.sje := rfl
@[simp] theorem State.voidClaims_fanInWindow : (s.voidClaims n).fanInWindow = s.fanInWindow := rfl
@[simp] theorem State.voidClaims_swu : (s.voidClaims n).swu = s.swu := rfl
@[simp] theorem State.voidClaims_hst : (s.voidClaims n).hst = s.hst := rfl
@[simp] theorem State.voidClaims_dcc : (s.voidClaims n).dcc = s.dcc := rfl
@[simp] theorem State.voidClaims_dram : (s.voidClaims n).dram = s.dram := rfl
@[simp] theorem State.voidClaims_alerts : (s.voidClaims n).alerts = s.alerts := rfl
@[simp] theorem State.voidClaims_counters : (s.voidClaims n).counters = s.counters := rfl
@[simp] theorem State.voidClaims_pending : (s.voidClaims n).pending = s.pending := rfl
@[simp] theorem State.voidClaims_rfe_rq : (s.voidClaims n).rfe.rq = s.rfe.rq := rfl
@[simp] theorem State.voidClaims_rfe_ready : (s.voidClaims n).rfe.ready = s.rfe.ready := rfl
@[simp] theorem State.voidClaims_rfe_tags : (s.voidClaims n).rfe.tags = s.rfe.tags := rfl
@[simp] theorem State.voidClaims_rfe_responses : (s.voidClaims n).rfe.responses =
    s.rfe.responses.map (fun r => if r.claim = some n then { r with claim := none } else r) := rfl
@[simp] theorem State.voidClaims_ring (j : Fin 64) : (s.voidClaims n).ring j = s.ring j := rfl

end

/-! ### `State.loseRecords` -/

section

variable (s : State) (k : Fin 64) (keep : PacketRecord → Bool)

@[simp] theorem State.loseRecords_rstnLow : (s.loseRecords k keep).rstnLow = s.rstnLow := rfl
@[simp] theorem State.loseRecords_capacity : (s.loseRecords k keep).capacity = s.capacity := rfl
@[simp] theorem State.loseRecords_clp : (s.loseRecords k keep).clp = s.clp := rfl
@[simp] theorem State.loseRecords_rfe : (s.loseRecords k keep).rfe = s.rfe := rfl
@[simp] theorem State.loseRecords_sje : (s.loseRecords k keep).sje = s.sje := rfl
@[simp] theorem State.loseRecords_fanInWindow : (s.loseRecords k keep).fanInWindow = s.fanInWindow := rfl
@[simp] theorem State.loseRecords_swu : (s.loseRecords k keep).swu = s.swu := rfl
@[simp] theorem State.loseRecords_hst : (s.loseRecords k keep).hst = s.hst := rfl
@[simp] theorem State.loseRecords_dcc : (s.loseRecords k keep).dcc = s.dcc := rfl
@[simp] theorem State.loseRecords_dram : (s.loseRecords k keep).dram = s.dram := rfl
@[simp] theorem State.loseRecords_alerts : (s.loseRecords k keep).alerts = s.alerts := rfl
@[simp] theorem State.loseRecords_counters : (s.loseRecords k keep).counters = s.counters := rfl
@[simp] theorem State.loseRecords_pending : (s.loseRecords k keep).pending = s.pending := rfl
@[simp] theorem State.loseRecords_poolFree : (s.loseRecords k keep).poolFree =
    s.poolFree + ((s.ring k).records.length - ((s.ring k).records.filter keep).length) := rfl

end

/-! ### `State.updateSenders` -/

section

variable (s : State) (k : Fin 64) (sig : Signature)

@[simp] theorem State.updateSenders_rstnLow : (s.updateSenders k sig).rstnLow = s.rstnLow := rfl
@[simp] theorem State.updateSenders_capacity : (s.updateSenders k sig).capacity = s.capacity := rfl
@[simp] theorem State.updateSenders_clp : (s.updateSenders k sig).clp = s.clp := rfl
@[simp] theorem State.updateSenders_rfe : (s.updateSenders k sig).rfe = s.rfe := rfl
@[simp] theorem State.updateSenders_poolFree : (s.updateSenders k sig).poolFree = s.poolFree := rfl
@[simp] theorem State.updateSenders_sje : (s.updateSenders k sig).sje = s.sje := rfl
@[simp] theorem State.updateSenders_fanInWindow : (s.updateSenders k sig).fanInWindow = s.fanInWindow := rfl
@[simp] theorem State.updateSenders_swu : (s.updateSenders k sig).swu = s.swu := rfl
@[simp] theorem State.updateSenders_hst : (s.updateSenders k sig).hst = s.hst := rfl
@[simp] theorem State.updateSenders_dcc : (s.updateSenders k sig).dcc = s.dcc := rfl
@[simp] theorem State.updateSenders_dram : (s.updateSenders k sig).dram = s.dram := rfl
@[simp] theorem State.updateSenders_alerts : (s.updateSenders k sig).alerts = s.alerts := rfl
@[simp] theorem State.updateSenders_pending : (s.updateSenders k sig).pending = s.pending := rfl
@[simp] theorem State.updateSenders_rings : (s.updateSenders k sig).rings =
    s.rings.set k { s.ring k with senders := noteSender (s.ring k).senders sig s.sje.epoch } := rfl

end

/-! ### `State.overwrite` -/

section

variable (s : State) (x : Slot) (data : List Byte)

@[simp] theorem State.overwrite_rstnLow : (s.overwrite x data).rstnLow = s.rstnLow := rfl
@[simp] theorem State.overwrite_capacity : (s.overwrite x data).capacity = s.capacity := rfl
@[simp] theorem State.overwrite_clp : (s.overwrite x data).clp = s.clp := rfl
@[simp] theorem State.overwrite_rings : (s.overwrite x data).rings = s.rings := rfl
@[simp] theorem State.overwrite_poolFree : (s.overwrite x data).poolFree = s.poolFree := rfl
@[simp] theorem State.overwrite_sje : (s.overwrite x data).sje = s.sje := rfl
@[simp] theorem State.overwrite_fanInWindow : (s.overwrite x data).fanInWindow = s.fanInWindow := rfl
@[simp] theorem State.overwrite_swu : (s.overwrite x data).swu = s.swu := rfl
@[simp] theorem State.overwrite_dcc : (s.overwrite x data).dcc = s.dcc := rfl
@[simp] theorem State.overwrite_dram : (s.overwrite x data).dram = s.dram := rfl
@[simp] theorem State.overwrite_alerts : (s.overwrite x data).alerts = s.alerts := rfl
@[simp] theorem State.overwrite_pending : (s.overwrite x data).pending = s.pending := rfl
@[simp] theorem State.overwrite_counters : (s.overwrite x data).counters =
    { s.counters with overwrites := bump s.counters.overwrites 1 } := rfl
@[simp] theorem State.overwrite_rfe_rq : (s.overwrite x data).rfe.rq = s.rfe.rq := rfl
@[simp] theorem State.overwrite_rfe_ready : (s.overwrite x data).rfe.ready = s.rfe.ready := rfl
@[simp] theorem State.overwrite_rfe_tags : (s.overwrite x data).rfe.tags = s.rfe.tags := rfl
@[simp] theorem State.overwrite_ring (j : Fin 64) : (s.overwrite x data).ring j = s.ring j := rfl

end

/-! ### `State.mergeHeld` -/

section

variable (s : State) (x : Slot) (w : Nat) (word : List Byte)

@[simp] theorem State.mergeHeld_rstnLow : (s.mergeHeld x w word).rstnLow = s.rstnLow := rfl
@[simp] theorem State.mergeHeld_capacity : (s.mergeHeld x w word).capacity = s.capacity := rfl
@[simp] theorem State.mergeHeld_clp : (s.mergeHeld x w word).clp = s.clp := rfl
@[simp] theorem State.mergeHeld_rfe : (s.mergeHeld x w word).rfe = s.rfe := rfl
@[simp] theorem State.mergeHeld_rings : (s.mergeHeld x w word).rings = s.rings := rfl
@[simp] theorem State.mergeHeld_poolFree : (s.mergeHeld x w word).poolFree = s.poolFree := rfl
@[simp] theorem State.mergeHeld_sje : (s.mergeHeld x w word).sje = s.sje := rfl
@[simp] theorem State.mergeHeld_fanInWindow : (s.mergeHeld x w word).fanInWindow = s.fanInWindow := rfl
@[simp] theorem State.mergeHeld_swu : (s.mergeHeld x w word).swu = s.swu := rfl
@[simp] theorem State.mergeHeld_dcc : (s.mergeHeld x w word).dcc = s.dcc := rfl
@[simp] theorem State.mergeHeld_dram : (s.mergeHeld x w word).dram = s.dram := rfl
@[simp] theorem State.mergeHeld_alerts : (s.mergeHeld x w word).alerts = s.alerts := rfl
@[simp] theorem State.mergeHeld_counters : (s.mergeHeld x w word).counters = s.counters := rfl
@[simp] theorem State.mergeHeld_pending : (s.mergeHeld x w word).pending = s.pending := rfl
@[simp] theorem State.mergeHeld_ring (j : Fin 64) : (s.mergeHeld x w word).ring j = s.ring j := rfl

end

/-! ### `State.freeSlot` -/

section

variable (s : State) (n : Nat)

@[simp] theorem State.freeSlot_rstnLow : (s.freeSlot n).rstnLow = s.rstnLow := rfl
@[simp] theorem State.freeSlot_capacity : (s.freeSlot n).capacity = s.capacity := rfl
@[simp] theorem State.freeSlot_clp : (s.freeSlot n).clp = s.clp := rfl
@[simp] theorem State.freeSlot_rings : (s.freeSlot n).rings = s.rings := rfl
@[simp] theorem State.freeSlot_poolFree : (s.freeSlot n).poolFree = s.poolFree := rfl
@[simp] theorem State.freeSlot_sje : (s.freeSlot n).sje = s.sje := rfl
@[simp] theorem State.freeSlot_fanInWindow : (s.freeSlot n).fanInWindow = s.fanInWindow := rfl
@[simp] theorem State.freeSlot_swu : (s.freeSlot n).swu = s.swu := rfl
@[simp] theorem State.freeSlot_dcc : (s.freeSlot n).dcc = s.dcc := rfl
@[simp] theorem State.freeSlot_dram : (s.freeSlot n).dram = s.dram := rfl
@[simp] theorem State.freeSlot_alerts : (s.freeSlot n).alerts = s.alerts := rfl
@[simp] theorem State.freeSlot_counters : (s.freeSlot n).counters = s.counters := rfl
@[simp] theorem State.freeSlot_pending : (s.freeSlot n).pending = s.pending := rfl
@[simp] theorem State.freeSlot_hst : (s.freeSlot n).hst = s.hst.remove n := rfl
@[simp] theorem State.freeSlot_rfe_rq : (s.freeSlot n).rfe.rq = s.rfe.rq := rfl
@[simp] theorem State.freeSlot_rfe_ready : (s.freeSlot n).rfe.ready = s.rfe.ready := rfl
@[simp] theorem State.freeSlot_rfe_tags : (s.freeSlot n).rfe.tags = s.rfe.tags := rfl
@[simp] theorem State.freeSlot_ring (j : Fin 64) : (s.freeSlot n).ring j = s.ring j := rfl

end

/-! ### `State.completeSoftReset` -/

section

variable (s : State)

@[simp] theorem State.completeSoftReset_rstnLow : (s.completeSoftReset).rstnLow = s.rstnLow := rfl
@[simp] theorem State.completeSoftReset_capacity : (s.completeSoftReset).capacity = s.capacity := rfl
@[simp] theorem State.completeSoftReset_clp : (s.completeSoftReset).clp = s.clp := rfl
@[simp] theorem State.completeSoftReset_rfe : (s.completeSoftReset).rfe = s.rfe := rfl
@[simp] theorem State.completeSoftReset_dram : (s.completeSoftReset).dram = s.dram := rfl
@[simp] theorem State.completeSoftReset_pending : (s.completeSoftReset).pending = s.pending := rfl
@[simp] theorem State.completeSoftReset_rings : (s.completeSoftReset).rings = Vector.replicate 64 Ring.reset := rfl
@[simp] theorem State.completeSoftReset_poolFree : (s.completeSoftReset).poolFree =
    s.poolFree + recordCount s.rings := rfl
@[simp] theorem State.completeSoftReset_sje_epoch : (s.completeSoftReset).sje.epoch = s.sje.epoch := rfl
@[simp] theorem State.completeSoftReset_sje_timer : (s.completeSoftReset).sje.timer = s.sje.timer := rfl
@[simp] theorem State.completeSoftReset_hst_slots : (s.completeSoftReset).hst.slots = s.hst.slots := rfl
@[simp] theorem State.completeSoftReset_dcc_state : (s.completeSoftReset).dcc.state = s.dcc.state := rfl
@[simp] theorem State.completeSoftReset_dcc_readQ : (s.completeSoftReset).dcc.readQ = s.dcc.readQ := rfl
@[simp] theorem State.completeSoftReset_dcc_writeQ : (s.completeSoftReset).dcc.writeQ = s.dcc.writeQ := rfl
@[simp] theorem State.completeSoftReset_dcc_inHand : (s.completeSoftReset).dcc.inHand = s.dcc.inHand := rfl
@[simp] theorem State.completeSoftReset_dcc_inFlight : (s.completeSoftReset).dcc.inFlight = s.dcc.inFlight := rfl
@[simp] theorem State.completeSoftReset_dcc_banks : (s.completeSoftReset).dcc.banks = s.dcc.banks := rfl
@[simp] theorem State.completeSoftReset_dcc_backlog : (s.completeSoftReset).dcc.backlog = s.dcc.backlog := rfl
@[simp] theorem State.completeSoftReset_dcc_nextSeq : (s.completeSoftReset).dcc.nextSeq = s.dcc.nextSeq := rfl
@[simp] theorem State.completeSoftReset_dcc_refreshInterval : (s.completeSoftReset).dcc.refreshInterval =
    s.dcc.refreshInterval := rfl
@[simp] theorem State.completeSoftReset_dcc_refreshTimer : (s.completeSoftReset).dcc.refreshTimer =
    s.dcc.refreshTimer := rfl

end

/-! ### `State.loadRefresh` -/

section

variable (s : State)

@[simp] theorem State.loadRefresh_rstnLow : (s.loadRefresh).rstnLow = s.rstnLow := rfl
@[simp] theorem State.loadRefresh_capacity : (s.loadRefresh).capacity = s.capacity := rfl
@[simp] theorem State.loadRefresh_clp : (s.loadRefresh).clp = s.clp := rfl
@[simp] theorem State.loadRefresh_rfe : (s.loadRefresh).rfe = s.rfe := rfl
@[simp] theorem State.loadRefresh_rings : (s.loadRefresh).rings = s.rings := rfl
@[simp] theorem State.loadRefresh_poolFree : (s.loadRefresh).poolFree = s.poolFree := rfl
@[simp] theorem State.loadRefresh_sje : (s.loadRefresh).sje = s.sje := rfl
@[simp] theorem State.loadRefresh_fanInWindow : (s.loadRefresh).fanInWindow = s.fanInWindow := rfl
@[simp] theorem State.loadRefresh_swu : (s.loadRefresh).swu = s.swu := rfl
@[simp] theorem State.loadRefresh_hst : (s.loadRefresh).hst = s.hst := rfl
@[simp] theorem State.loadRefresh_dram : (s.loadRefresh).dram = s.dram := rfl
@[simp] theorem State.loadRefresh_alerts : (s.loadRefresh).alerts = s.alerts := rfl
@[simp] theorem State.loadRefresh_counters : (s.loadRefresh).counters = s.counters := rfl
@[simp] theorem State.loadRefresh_pending : (s.loadRefresh).pending = s.pending := rfl
@[simp] theorem State.loadRefresh_dcc : (s.loadRefresh).dcc =
    { s.dcc with refreshInterval := clampRefresh s.swu.stagedRefresh, refreshTimer := some (clampRefresh s.swu.stagedRefresh) } := rfl
@[simp] theorem State.loadRefresh_ring (j : Fin 64) : (s.loadRefresh).ring j = s.ring j := rfl

end

/-! ### `State.enterRun` -/

section

variable (s : State)

@[simp] theorem State.enterRun_rstnLow : (s.enterRun).rstnLow = s.rstnLow := rfl
@[simp] theorem State.enterRun_capacity : (s.enterRun).capacity = s.capacity := rfl
@[simp] theorem State.enterRun_clp : (s.enterRun).clp = s.clp := rfl
@[simp] theorem State.enterRun_rfe : (s.enterRun).rfe = s.rfe := rfl
@[simp] theorem State.enterRun_rings : (s.enterRun).rings = s.rings := rfl
@[simp] theorem State.enterRun_poolFree : (s.enterRun).poolFree = s.poolFree := rfl
@[simp] theorem State.enterRun_sje : (s.enterRun).sje = s.sje := rfl
@[simp] theorem State.enterRun_fanInWindow : (s.enterRun).fanInWindow = s.fanInWindow := rfl
@[simp] theorem State.enterRun_swu : (s.enterRun).swu = s.swu := rfl
@[simp] theorem State.enterRun_hst : (s.enterRun).hst = s.hst := rfl
@[simp] theorem State.enterRun_dram : (s.enterRun).dram = s.dram := rfl
@[simp] theorem State.enterRun_alerts : (s.enterRun).alerts = s.alerts := rfl
@[simp] theorem State.enterRun_counters : (s.enterRun).counters = s.counters := rfl
@[simp] theorem State.enterRun_pending : (s.enterRun).pending = s.pending := rfl
@[simp] theorem State.enterRun_dcc : (s.enterRun).dcc =
    { s.dcc with state := .run, banks := Channel.closedBanks, backlog := 0, refreshInterval := clampRefresh s.swu.stagedRefresh, refreshTimer := some (clampRefresh s.swu.stagedRefresh) } := rfl
@[simp] theorem State.enterRun_ring (j : Fin 64) : (s.enterRun).ring j = s.ring j := rfl

end

/-! ### `State.startCredit` -/

section

variable (s : State)

@[simp] theorem State.startCredit_rstnLow : (s.startCredit).rstnLow = s.rstnLow := rfl
@[simp] theorem State.startCredit_capacity : (s.startCredit).capacity = s.capacity := rfl
@[simp] theorem State.startCredit_rfe : (s.startCredit).rfe = s.rfe := rfl
@[simp] theorem State.startCredit_rings : (s.startCredit).rings = s.rings := rfl
@[simp] theorem State.startCredit_poolFree : (s.startCredit).poolFree = s.poolFree := rfl
@[simp] theorem State.startCredit_sje : (s.startCredit).sje = s.sje := rfl
@[simp] theorem State.startCredit_fanInWindow : (s.startCredit).fanInWindow = s.fanInWindow := rfl
@[simp] theorem State.startCredit_swu : (s.startCredit).swu = s.swu := rfl
@[simp] theorem State.startCredit_hst : (s.startCredit).hst = s.hst := rfl
@[simp] theorem State.startCredit_dcc : (s.startCredit).dcc = s.dcc := rfl
@[simp] theorem State.startCredit_dram : (s.startCredit).dram = s.dram := rfl
@[simp] theorem State.startCredit_alerts : (s.startCredit).alerts = s.alerts := rfl
@[simp] theorem State.startCredit_counters : (s.startCredit).counters = s.counters := rfl
@[simp] theorem State.startCredit_pending : (s.startCredit).pending = s.pending := rfl
@[simp] theorem State.startCredit_clp : (s.startCredit).clp =
    { s.clp with tx := .credit (creditFrame s.clp.owed), owed := 0, lastWasCredit := true } := rfl
@[simp] theorem State.startCredit_ring (j : Fin 64) : (s.startCredit).ring j = s.ring j := rfl

end

/-! ### `State.linkUp` -/

section

variable (s : State)

@[simp] theorem State.linkUp_rstnLow : (s.linkUp).rstnLow = s.rstnLow := rfl
@[simp] theorem State.linkUp_capacity : (s.linkUp).capacity = s.capacity := rfl
@[simp] theorem State.linkUp_rfe : (s.linkUp).rfe = s.rfe := rfl
@[simp] theorem State.linkUp_rings : (s.linkUp).rings = s.rings := rfl
@[simp] theorem State.linkUp_poolFree : (s.linkUp).poolFree = s.poolFree := rfl
@[simp] theorem State.linkUp_sje : (s.linkUp).sje = s.sje := rfl
@[simp] theorem State.linkUp_fanInWindow : (s.linkUp).fanInWindow = s.fanInWindow := rfl
@[simp] theorem State.linkUp_swu : (s.linkUp).swu = s.swu := rfl
@[simp] theorem State.linkUp_hst : (s.linkUp).hst = s.hst := rfl
@[simp] theorem State.linkUp_dcc : (s.linkUp).dcc = s.dcc := rfl
@[simp] theorem State.linkUp_dram : (s.linkUp).dram = s.dram := rfl
@[simp] theorem State.linkUp_alerts : (s.linkUp).alerts = s.alerts := rfl
@[simp] theorem State.linkUp_counters : (s.linkUp).counters = s.counters := rfl
@[simp] theorem State.linkUp_pending : (s.linkUp).pending = s.pending := rfl
@[simp] theorem State.linkUp_clp : (s.linkUp).clp = { s.clp with state := .up, attempt := 0, owed := 64 } := rfl
@[simp] theorem State.linkUp_ring (j : Fin 64) : (s.linkUp).ring j = s.ring j := rfl

end

/-! ### `State.freeChannel` -/

section

variable (s : State)

@[simp] theorem State.freeChannel_rstnLow : (s.freeChannel).rstnLow = s.rstnLow := rfl
@[simp] theorem State.freeChannel_capacity : (s.freeChannel).capacity = s.capacity := rfl
@[simp] theorem State.freeChannel_clp : (s.freeChannel).clp = s.clp := rfl
@[simp] theorem State.freeChannel_rfe : (s.freeChannel).rfe = s.rfe := rfl
@[simp] theorem State.freeChannel_rings : (s.freeChannel).rings = s.rings := rfl
@[simp] theorem State.freeChannel_poolFree : (s.freeChannel).poolFree = s.poolFree := rfl
@[simp] theorem State.freeChannel_sje : (s.freeChannel).sje = s.sje := rfl
@[simp] theorem State.freeChannel_fanInWindow : (s.freeChannel).fanInWindow = s.fanInWindow := rfl
@[simp] theorem State.freeChannel_swu : (s.freeChannel).swu = s.swu := rfl
@[simp] theorem State.freeChannel_hst : (s.freeChannel).hst = s.hst := rfl
@[simp] theorem State.freeChannel_dram : (s.freeChannel).dram = s.dram := rfl
@[simp] theorem State.freeChannel_alerts : (s.freeChannel).alerts = s.alerts := rfl
@[simp] theorem State.freeChannel_counters : (s.freeChannel).counters = s.counters := rfl
@[simp] theorem State.freeChannel_pending : (s.freeChannel).pending = s.pending := rfl
@[simp] theorem State.freeChannel_dcc : (s.freeChannel).dcc = { s.dcc with inFlight := none } := rfl
@[simp] theorem State.freeChannel_ring (j : Fin 64) : (s.freeChannel).ring j = s.ring j := rfl

end

/-! ### `State.landBytes` -/

section

variable (s : State) (n : Nat) (bytes : List Byte)

@[simp] theorem State.landBytes_rstnLow : (s.landBytes n bytes).rstnLow = s.rstnLow := rfl
@[simp] theorem State.landBytes_capacity : (s.landBytes n bytes).capacity = s.capacity := rfl
@[simp] theorem State.landBytes_clp : (s.landBytes n bytes).clp = s.clp := rfl
@[simp] theorem State.landBytes_rings : (s.landBytes n bytes).rings = s.rings := rfl
@[simp] theorem State.landBytes_poolFree : (s.landBytes n bytes).poolFree = s.poolFree := rfl
@[simp] theorem State.landBytes_sje : (s.landBytes n bytes).sje = s.sje := rfl
@[simp] theorem State.landBytes_fanInWindow : (s.landBytes n bytes).fanInWindow = s.fanInWindow := rfl
@[simp] theorem State.landBytes_swu : (s.landBytes n bytes).swu = s.swu := rfl
@[simp] theorem State.landBytes_hst : (s.landBytes n bytes).hst = s.hst := rfl
@[simp] theorem State.landBytes_dcc : (s.landBytes n bytes).dcc = s.dcc := rfl
@[simp] theorem State.landBytes_dram : (s.landBytes n bytes).dram = s.dram := rfl
@[simp] theorem State.landBytes_alerts : (s.landBytes n bytes).alerts = s.alerts := rfl
@[simp] theorem State.landBytes_counters : (s.landBytes n bytes).counters = s.counters := rfl
@[simp] theorem State.landBytes_pending : (s.landBytes n bytes).pending = s.pending := rfl
@[simp] theorem State.landBytes_rfe_rq : (s.landBytes n bytes).rfe.rq = s.rfe.rq := rfl
@[simp] theorem State.landBytes_rfe_ready : (s.landBytes n bytes).rfe.ready = s.rfe.ready ++ [n] := rfl
@[simp] theorem State.landBytes_rfe_tags : (s.landBytes n bytes).rfe.tags = s.rfe.tags := rfl
@[simp] theorem State.landBytes_rfe_responses : (s.landBytes n bytes).rfe.responses =
    s.rfe.responses.map (fun r => if r.id = n then { r with state := .ready, data := rewritten r.header bytes } else r) := rfl
@[simp] theorem State.landBytes_ring (j : Fin 64) : (s.landBytes n bytes).ring j = s.ring j := rfl

end

/-! ### `State.freeResponse` -/

section

variable (s : State) (r : Response)

@[simp] theorem State.freeResponse_rstnLow : (s.freeResponse r).rstnLow = s.rstnLow := rfl
@[simp] theorem State.freeResponse_capacity : (s.freeResponse r).capacity = s.capacity := rfl
@[simp] theorem State.freeResponse_rings : (s.freeResponse r).rings = s.rings := rfl
@[simp] theorem State.freeResponse_poolFree : (s.freeResponse r).poolFree = s.poolFree := rfl
@[simp] theorem State.freeResponse_sje : (s.freeResponse r).sje = s.sje := rfl
@[simp] theorem State.freeResponse_fanInWindow : (s.freeResponse r).fanInWindow = s.fanInWindow := rfl
@[simp] theorem State.freeResponse_swu : (s.freeResponse r).swu = s.swu := rfl
@[simp] theorem State.freeResponse_hst : (s.freeResponse r).hst = s.hst := rfl
@[simp] theorem State.freeResponse_dcc : (s.freeResponse r).dcc = s.dcc := rfl
@[simp] theorem State.freeResponse_dram : (s.freeResponse r).dram = s.dram := rfl
@[simp] theorem State.freeResponse_alerts : (s.freeResponse r).alerts = s.alerts := rfl
@[simp] theorem State.freeResponse_counters : (s.freeResponse r).counters = s.counters := rfl
@[simp] theorem State.freeResponse_pending : (s.freeResponse r).pending = s.pending := rfl
@[simp] theorem State.freeResponse_clp : (s.freeResponse r).clp = { s.clp with tx := .idle } := rfl
@[simp] theorem State.freeResponse_rfe_rq : (s.freeResponse r).rfe.rq = s.rfe.rq := rfl
@[simp] theorem State.freeResponse_rfe_ready : (s.freeResponse r).rfe.ready = s.rfe.ready := rfl
@[simp] theorem State.freeResponse_rfe_responses : (s.freeResponse r).rfe.responses =
    s.rfe.responses.filter (fun x => x.id != r.id) := rfl
@[simp] theorem State.freeResponse_rfe_tags : (s.freeResponse r).rfe.tags =
    if r.status = .tagReused then s.rfe.tags else s.rfe.tags.filter (fun t => t != r.tag) := rfl
@[simp] theorem State.freeResponse_ring (j : Fin 64) : (s.freeResponse r).ring j = s.ring j := rfl

end

/-! ### `State.acceptRequest` -/

section

variable (s : State) (r : Request)

@[simp] theorem State.acceptRequest_rstnLow : (s.acceptRequest r).rstnLow = s.rstnLow := rfl
@[simp] theorem State.acceptRequest_capacity : (s.acceptRequest r).capacity = s.capacity := rfl
@[simp] theorem State.acceptRequest_clp : (s.acceptRequest r).clp = s.clp := rfl
@[simp] theorem State.acceptRequest_rings : (s.acceptRequest r).rings = s.rings := rfl
@[simp] theorem State.acceptRequest_poolFree : (s.acceptRequest r).poolFree = s.poolFree := rfl
@[simp] theorem State.acceptRequest_sje : (s.acceptRequest r).sje = s.sje := rfl
@[simp] theorem State.acceptRequest_fanInWindow : (s.acceptRequest r).fanInWindow = s.fanInWindow := rfl
@[simp] theorem State.acceptRequest_swu : (s.acceptRequest r).swu = s.swu := rfl
@[simp] theorem State.acceptRequest_hst : (s.acceptRequest r).hst = s.hst := rfl
@[simp] theorem State.acceptRequest_dram : (s.acceptRequest r).dram = s.dram := rfl
@[simp] theorem State.acceptRequest_alerts : (s.acceptRequest r).alerts = s.alerts := rfl
@[simp] theorem State.acceptRequest_counters : (s.acceptRequest r).counters = s.counters := rfl
@[simp] theorem State.acceptRequest_pending : (s.acceptRequest r).pending = s.pending := rfl
@[simp] theorem State.acceptRequest_rfe : (s.acceptRequest r).rfe = { s.rfe with rq := s.rfe.rq ++ [r] } := rfl
@[simp] theorem State.acceptRequest_dcc : (s.acceptRequest r).dcc =
    { s.dcc with quietTimer := loadQuiet s.dcc.quietDelay } := rfl
@[simp] theorem State.acceptRequest_ring (j : Fin 64) : (s.acceptRequest r).ring j = s.ring j := rfl

end

/-! ### `State.stageEpochSettings` -/

section

variable (s : State) (w : List Byte)

@[simp] theorem State.stageEpochSettings_rstnLow : (s.stageEpochSettings w).rstnLow = s.rstnLow := rfl
@[simp] theorem State.stageEpochSettings_capacity : (s.stageEpochSettings w).capacity = s.capacity := rfl
@[simp] theorem State.stageEpochSettings_clp : (s.stageEpochSettings w).clp = s.clp := rfl
@[simp] theorem State.stageEpochSettings_rfe : (s.stageEpochSettings w).rfe = s.rfe := rfl
@[simp] theorem State.stageEpochSettings_rings : (s.stageEpochSettings w).rings = s.rings := rfl
@[simp] theorem State.stageEpochSettings_poolFree : (s.stageEpochSettings w).poolFree = s.poolFree := rfl
@[simp] theorem State.stageEpochSettings_sje : (s.stageEpochSettings w).sje = s.sje := rfl
@[simp] theorem State.stageEpochSettings_fanInWindow : (s.stageEpochSettings w).fanInWindow = s.fanInWindow := rfl
@[simp] theorem State.stageEpochSettings_hst : (s.stageEpochSettings w).hst = s.hst := rfl
@[simp] theorem State.stageEpochSettings_dcc : (s.stageEpochSettings w).dcc = s.dcc := rfl
@[simp] theorem State.stageEpochSettings_dram : (s.stageEpochSettings w).dram = s.dram := rfl
@[simp] theorem State.stageEpochSettings_alerts : (s.stageEpochSettings w).alerts = s.alerts := rfl
@[simp] theorem State.stageEpochSettings_counters : (s.stageEpochSettings w).counters = s.counters := rfl
@[simp] theorem State.stageEpochSettings_pending : (s.stageEpochSettings w).pending = s.pending := rfl
@[simp] theorem State.stageEpochSettings_ring (j : Fin 64) : (s.stageEpochSettings w).ring j = s.ring j := rfl

end

/-! ### `State.writeRefreshQuiet` -/

section

variable (s : State) (w : List Byte)

@[simp] theorem State.writeRefreshQuiet_rstnLow : (s.writeRefreshQuiet w).rstnLow = s.rstnLow := rfl
@[simp] theorem State.writeRefreshQuiet_capacity : (s.writeRefreshQuiet w).capacity = s.capacity := rfl
@[simp] theorem State.writeRefreshQuiet_clp : (s.writeRefreshQuiet w).clp = s.clp := rfl
@[simp] theorem State.writeRefreshQuiet_rfe : (s.writeRefreshQuiet w).rfe = s.rfe := rfl
@[simp] theorem State.writeRefreshQuiet_rings : (s.writeRefreshQuiet w).rings = s.rings := rfl
@[simp] theorem State.writeRefreshQuiet_poolFree : (s.writeRefreshQuiet w).poolFree = s.poolFree := rfl
@[simp] theorem State.writeRefreshQuiet_sje : (s.writeRefreshQuiet w).sje = s.sje := rfl
@[simp] theorem State.writeRefreshQuiet_fanInWindow : (s.writeRefreshQuiet w).fanInWindow = s.fanInWindow := rfl
@[simp] theorem State.writeRefreshQuiet_hst : (s.writeRefreshQuiet w).hst = s.hst := rfl
@[simp] theorem State.writeRefreshQuiet_dram : (s.writeRefreshQuiet w).dram = s.dram := rfl
@[simp] theorem State.writeRefreshQuiet_alerts : (s.writeRefreshQuiet w).alerts = s.alerts := rfl
@[simp] theorem State.writeRefreshQuiet_counters : (s.writeRefreshQuiet w).counters = s.counters := rfl
@[simp] theorem State.writeRefreshQuiet_pending : (s.writeRefreshQuiet w).pending = s.pending := rfl
@[simp] theorem State.writeRefreshQuiet_ring (j : Fin 64) : (s.writeRefreshQuiet w).ring j = s.ring j := rfl

end

/-! ### `State.writeAlertLine` -/

section

variable (s : State) (n : Fin 4) (w : List Byte)

@[simp] theorem State.writeAlertLine_rstnLow : (s.writeAlertLine n w).rstnLow = s.rstnLow := rfl
@[simp] theorem State.writeAlertLine_capacity : (s.writeAlertLine n w).capacity = s.capacity := rfl
@[simp] theorem State.writeAlertLine_clp : (s.writeAlertLine n w).clp = s.clp := rfl
@[simp] theorem State.writeAlertLine_rfe : (s.writeAlertLine n w).rfe = s.rfe := rfl
@[simp] theorem State.writeAlertLine_rings : (s.writeAlertLine n w).rings = s.rings := rfl
@[simp] theorem State.writeAlertLine_poolFree : (s.writeAlertLine n w).poolFree = s.poolFree := rfl
@[simp] theorem State.writeAlertLine_sje : (s.writeAlertLine n w).sje = s.sje := rfl
@[simp] theorem State.writeAlertLine_fanInWindow : (s.writeAlertLine n w).fanInWindow = s.fanInWindow := rfl
@[simp] theorem State.writeAlertLine_swu : (s.writeAlertLine n w).swu = s.swu := rfl
@[simp] theorem State.writeAlertLine_hst : (s.writeAlertLine n w).hst = s.hst := rfl
@[simp] theorem State.writeAlertLine_dcc : (s.writeAlertLine n w).dcc = s.dcc := rfl
@[simp] theorem State.writeAlertLine_dram : (s.writeAlertLine n w).dram = s.dram := rfl
@[simp] theorem State.writeAlertLine_counters : (s.writeAlertLine n w).counters = s.counters := rfl
@[simp] theorem State.writeAlertLine_pending : (s.writeAlertLine n w).pending = s.pending := rfl
@[simp] theorem State.writeAlertLine_ring (j : Fin 64) : (s.writeAlertLine n w).ring j = s.ring j := rfl

end

/-! ### `State.writeFlagClear` -/

section

variable (s : State) (n : Fin 4) (w : List Byte)

@[simp] theorem State.writeFlagClear_rstnLow : (s.writeFlagClear n w).rstnLow = s.rstnLow := rfl
@[simp] theorem State.writeFlagClear_capacity : (s.writeFlagClear n w).capacity = s.capacity := rfl
@[simp] theorem State.writeFlagClear_clp : (s.writeFlagClear n w).clp = s.clp := rfl
@[simp] theorem State.writeFlagClear_rfe : (s.writeFlagClear n w).rfe = s.rfe := rfl
@[simp] theorem State.writeFlagClear_rings : (s.writeFlagClear n w).rings = s.rings := rfl
@[simp] theorem State.writeFlagClear_poolFree : (s.writeFlagClear n w).poolFree = s.poolFree := rfl
@[simp] theorem State.writeFlagClear_sje : (s.writeFlagClear n w).sje = s.sje := rfl
@[simp] theorem State.writeFlagClear_fanInWindow : (s.writeFlagClear n w).fanInWindow = s.fanInWindow := rfl
@[simp] theorem State.writeFlagClear_swu : (s.writeFlagClear n w).swu = s.swu := rfl
@[simp] theorem State.writeFlagClear_hst : (s.writeFlagClear n w).hst = s.hst := rfl
@[simp] theorem State.writeFlagClear_dcc : (s.writeFlagClear n w).dcc = s.dcc := rfl
@[simp] theorem State.writeFlagClear_dram : (s.writeFlagClear n w).dram = s.dram := rfl
@[simp] theorem State.writeFlagClear_counters : (s.writeFlagClear n w).counters = s.counters := rfl
@[simp] theorem State.writeFlagClear_pending : (s.writeFlagClear n w).pending = s.pending := rfl
@[simp] theorem State.writeFlagClear_ring (j : Fin 64) : (s.writeFlagClear n w).ring j = s.ring j := rfl

end

/-! ### `State.clearCounters` -/

section

variable (s : State)

@[simp] theorem State.clearCounters_rstnLow : (s.clearCounters).rstnLow = s.rstnLow := rfl
@[simp] theorem State.clearCounters_capacity : (s.clearCounters).capacity = s.capacity := rfl
@[simp] theorem State.clearCounters_clp : (s.clearCounters).clp = s.clp := rfl
@[simp] theorem State.clearCounters_rfe : (s.clearCounters).rfe = s.rfe := rfl
@[simp] theorem State.clearCounters_poolFree : (s.clearCounters).poolFree = s.poolFree := rfl
@[simp] theorem State.clearCounters_sje : (s.clearCounters).sje = s.sje := rfl
@[simp] theorem State.clearCounters_fanInWindow : (s.clearCounters).fanInWindow = s.fanInWindow := rfl
@[simp] theorem State.clearCounters_swu : (s.clearCounters).swu = s.swu := rfl
@[simp] theorem State.clearCounters_hst : (s.clearCounters).hst = s.hst := rfl
@[simp] theorem State.clearCounters_dcc : (s.clearCounters).dcc = s.dcc := rfl
@[simp] theorem State.clearCounters_dram : (s.clearCounters).dram = s.dram := rfl
@[simp] theorem State.clearCounters_alerts : (s.clearCounters).alerts = s.alerts := rfl
@[simp] theorem State.clearCounters_pending : (s.clearCounters).pending = s.pending := rfl
@[simp] theorem State.clearCounters_counters : (s.clearCounters).counters = .zero := rfl

end

end Sys2Proof.Machine
end

