-- ==== Sys2Proof/Laws/Ops.lean ====
section
/-! SUPPORT. What the shared operations of Machine/Ops.lean can do, each said once. -/

namespace Sys2Proof.Machine

/-! ### The DRAM queues -/

/-- A write joins the write queue exactly when the queue holds fewer than 32 entries, and then at its tail. -/
theorem State.queueWrite_eq_some {s t : State} {cell : Nat} {w : WriteData} :
    s.queueWrite cell w = some t ↔ s.dcc.writeQ.length < 32 ∧
      t = { s with
        dcc.writeQ := s.dcc.writeQ ++ [{ cell := cell, payload := w, seq := s.dcc.nextSeq }]
        dcc.nextSeq := s.dcc.nextSeq + 1 } := by
  unfold State.queueWrite
  split
  · simp only [Option.some.injEq, true_and, *]; exact eq_comm
  · simp [*]

theorem State.queueWrite_eq_none {s : State} {cell : Nat} {w : WriteData} :
    s.queueWrite cell w = none ↔ 32 ≤ s.dcc.writeQ.length := by
  unfold State.queueWrite
  split <;> simp <;> omega

/-- A read joins the read queue exactly when the queue holds fewer than 32 entries, and then at its tail. -/
theorem State.queueRead_eq_some {s t : State} {cell entry : Nat} {x : Extent} {boost : Bool} :
    s.queueRead cell x entry boost = some t ↔ s.dcc.readQ.length < 32 ∧
      t = { s with
        dcc.readQ :=
          s.dcc.readQ ++ [{ cell := cell, extent := x, entry := entry, boost := boost, seq := s.dcc.nextSeq }]
        dcc.nextSeq := s.dcc.nextSeq + 1 } := by
  unfold State.queueRead
  split
  · simp only [Option.some.injEq, true_and, *]; exact eq_comm
  · simp [*]

theorem State.queueRead_eq_none {s : State} {cell entry : Nat} {x : Extent} {boost : Bool} :
    s.queueRead cell x entry boost = none ↔ 32 ≤ s.dcc.readQ.length := by
  unfold State.queueRead
  split <;> simp <;> omega

/-! ### Numbers that are free -/

/-- Fewer numbers than `k` in a list leave one of 0..k−1 out of it. -/
theorem exists_unused {l : List Nat} {k : Nat} (h : l.length < k) : ∃ n, n < k ∧ n ∉ l := by
  by_contra hc
  push Not at hc
  have := (List.nodup_range (n := k)).subperm (fun n hn => hc n (List.mem_range.mp hn))
  have := this.length_le
  simp at this
  omega

/-- The entry a take reserves is FREE and below 64. -/
theorem FrontEnd.freeEntry?_spec {f : FrontEnd} {n : Nat} (h : f.freeEntry? = some n) :
    n < 64 ∧ ∀ r ∈ f.responses, r.id ≠ n := by
  unfold FrontEnd.freeEntry? at h
  have h1 := List.find?_some h
  have h2 := List.mem_of_find?_eq_some h
  simp at h1 h2
  exact ⟨h2, h1⟩

/-- With fewer than 64 entries in use one is FREE. -/
theorem FrontEnd.freeEntry?_of_length {f : FrontEnd} (h : f.responses.length < 64) :
    ∃ n, f.freeEntry? = some n := by
  obtain ⟨n, hn, hm⟩ := exists_unused (l := f.responses.map (fun r => r.id)) (k := 64) (by simpa using h)
  refine Option.isSome_iff_exists.mp ?_
  unfold FrontEnd.freeEntry?
  rw [List.find?_isSome]
  refine ⟨n, List.mem_range.mpr hn, ?_⟩
  simp only [List.all_eq_true, bne_iff_ne]
  intro r hr e
  exact hm (List.mem_map.mpr ⟨r, hr, e⟩)

/-! ### Cell indices -/

/-- CAP leaves room for the service area. -/
theorem Capacity.cells_large (c : Capacity) : 16777216 ≤ c.cells := by cases c <;> decide

/-- The four classes of a cell index, by its distance from CAP (R145, R157). -/
theorem State.cellClass_cases (s : State) (cell : Nat) :
    (s.capacity.cells ≤ cell ∧ s.cellClass cell = .outOfRange) ∨
    (s.capacity.cells - 32 ≤ cell ∧ cell < s.capacity.cells ∧
      s.cellClass cell = .control (cell - (s.capacity.cells - 32))) ∨
    (s.capacity.cells - 128 ≤ cell ∧ cell < s.capacity.cells - 32 ∧
      s.cellClass cell = .report (cell - (s.capacity.cells - 128))) ∨
    (cell < s.capacity.cells - 128 ∧ s.cellClass cell = .buffer) := by
  have := s.capacity.cells_large
  unfold State.cellClass
  dsimp only
  split
  · left; exact ⟨by omega, rfl⟩
  · split
    · right; left; exact ⟨by omega, by omega, rfl⟩
    · split
      · right; right; left; exact ⟨by omega, by omega, rfl⟩
      · right; right; right; exact ⟨by omega, rfl⟩

/-- A ring position is a cell of the ring's positions, counted in the ring's direction (R15). -/
theorem Geometry.position?_eq_some {g : Geometry} {cell p : Nat} :
    g.position? cell = some p ↔ p < g.length ∧
      cell = if g.direction = .up then g.base + g.lead + p else g.base + g.lead + g.length - 1 - p := by
  unfold Geometry.position? Geometry.firstPosition Geometry.stop
  cases h : g.direction <;> simp only [Option.ite_none_right_eq_some, Option.some.injEq]
  · simp; omega
  · simp; omega

theorem Geometry.covers_iff {g : Geometry} {cell : Nat} :
    g.covers cell = true ↔ g.base ≤ cell ∧ cell < g.base + g.lead + g.length := by
  simp only [Geometry.covers, Bool.and_eq_true, decide_eq_true_eq]
  rfl

theorem Ring.isActive_iff {r : Ring} : r.isActive = true ↔ r.state ≠ .off := by simp [Ring.isActive]

/-- The ring that a cell is found in is active, and its region covers the cell (R16). -/
theorem State.ringOf?_some {s : State} {cell : Nat} {k : Fin 64} (h : s.ringOf? cell = some k) :
    (s.ring k).state ≠ .off ∧ (s.ring k).active.covers cell = true := by
  have := List.find?_some h
  simpa only [Bool.and_eq_true, Ring.isActive_iff] using this

theorem State.ringOf?_none {s : State} {cell : Nat} (h : s.ringOf? cell = none) (k : Fin 64)
    (hk : (s.ring k).state ≠ .off) : (s.ring k).active.covers cell = false := by
  unfold State.ringOf? at h
  rw [List.find?_eq_none] at h
  have := h k (List.mem_finRange k)
  simpa [Ring.isActive_iff.mpr hk] using this

/-- A position that the classification gives is a position of an active ring (R16). -/
theorem State.ringClass_position {s : State} {cell p : Nat} {k : Fin 64} (h : s.ringClass cell = .position k p) :
    (s.ring k).state ≠ .off ∧ (s.ring k).active.position? cell = some p := by
  unfold State.ringClass at h
  split at h <;> rename_i hf
  · cases h
  · split at h <;> rename_i hp <;> cases h
    exact ⟨(State.ringOf?_some hf).1, hp⟩

end Sys2Proof.Machine
end

