-- ==== Sys2Proof/Laws/HoldStore.lean ====
section
/-! SUPPORT. What the operations of the Hold Store can do, each said once. -/

namespace Sys2Proof.Machine

/-! ### Lookups -/

theorem HoldStore.lookup?_some {h : HoldStore} {cell : Nat} {x : Slot} (e : h.lookup? cell = some x) :
    x ∈ h.slots ∧ x.cell = cell := by
  unfold HoldStore.lookup? at e
  exact ⟨List.mem_of_find?_eq_some e, by simpa using List.find?_some e⟩

theorem HoldStore.lookup?_none {h : HoldStore} {cell : Nat} :
    h.lookup? cell = none ↔ ∀ x ∈ h.slots, x.cell ≠ cell := by
  simp [HoldStore.lookup?]

theorem HoldStore.slot?_some {h : HoldStore} {n : Nat} {x : Slot} (e : h.slot? n = some x) :
    x ∈ h.slots ∧ x.num = n := by
  unfold HoldStore.slot? at e
  exact ⟨List.mem_of_find?_eq_some e, by simpa using List.find?_some e⟩

theorem HoldStore.slot?_none {h : HoldStore} {n : Nat} : h.slot? n = none ↔ ∀ x ∈ h.slots, x.num ≠ n := by
  simp [HoldStore.slot?]

/-- The oldest HELD slot has no HELD slot before it in the age order (R98). -/
theorem HoldStore.oldestHeld?_some {h : HoldStore} {x : Slot} (e : h.oldestHeld? = some x) :
    x.state = .held ∧ ∃ older younger, h.slots = older ++ x :: younger ∧ ∀ y ∈ older, y.state ≠ .held := by
  unfold HoldStore.oldestHeld? at e
  rw [List.find?_eq_some_iff_append] at e
  obtain ⟨hx, a, b, hs, ha⟩ := e
  exact ⟨by simpa using hx, a, b, hs, fun y hy => by simpa using ha y hy⟩

theorem HoldStore.oldestHeld?_none {h : HoldStore} : h.oldestHeld? = none ↔ ∀ x ∈ h.slots, x.state ≠ .held := by
  simp [HoldStore.oldestHeld?]

theorem HoldStore.oldestHeld?_eq_head? (h : HoldStore) :
    h.oldestHeld? = (h.slots.filter (fun x => x.state == .held)).head? := by
  rw [HoldStore.oldestHeld?, List.head?_filter]

/-- The store answers NONE exactly where it has no HELD slot (R110). -/
theorem State.urgency_ne_none {s : State} : s.urgency ≠ .none ↔ ∃ x ∈ s.hst.slots, x.state = .held := by
  unfold State.urgency HoldStore.urgency
  cases h : s.hst.oldestHeld? with
  | none =>
    rw [HoldStore.oldestHeld?_none] at h
    exact ⟨fun h => absurd rfl h, fun ⟨x, hx, he⟩ => absurd he (h x hx)⟩
  | some x =>
    obtain ⟨he, older, younger, hs, -⟩ := HoldStore.oldestHeld?_some h
    refine ⟨fun _ => ⟨x, by simp [hs], he⟩, fun _ => ?_⟩
    dsimp only
    split
    · simp
    · split <;> simp

/-- The slot an admission takes is FREE and below 2048. -/
theorem HoldStore.freeSlot?_spec {h : HoldStore} {n : Nat} (e : h.freeSlot? = some n) :
    n < 2048 ∧ ∀ x ∈ h.slots, x.num ≠ n := by
  unfold HoldStore.freeSlot? at e
  have h1 := List.find?_some e
  have h2 := List.mem_of_find?_eq_some e
  simp only [List.all_eq_true, bne_iff_ne] at h1
  exact ⟨List.mem_range.mp h2, h1⟩

/-- Some slot is FREE. -/
theorem HoldStore.freeSlot?_isSome_iff {h : HoldStore} :
    h.freeSlot?.isSome = true ↔ ∃ n, n < 2048 ∧ ∀ x ∈ h.slots, x.num ≠ n := by
  simp [HoldStore.freeSlot?, List.find?_isSome]

/-- A slot is FREE exactly while the store holds fewer than 2048, where slot numbers are distinct and below 2048. -/
theorem HoldStore.freeSlot?_isSome {h : HoldStore} (ok : h.SlotsOk) :
    h.freeSlot?.isSome = true ↔ h.slots.length < 2048 := by
  constructor
  · intro e
    obtain ⟨n, hn⟩ := Option.isSome_iff_exists.mp e
    obtain ⟨h1, h2⟩ := HoldStore.freeSlot?_spec hn
    have nodup : (n :: h.slots.map (fun x => x.num)).Nodup :=
      List.nodup_cons.mpr ⟨fun hm => by obtain ⟨x, hx, e⟩ := List.mem_map.mp hm; exact h2 x hx e, ok.2.1⟩
    have sub : (n :: h.slots.map (fun x => x.num)) ⊆ List.range 2048 := by
      intro m hm
      rcases List.mem_cons.mp hm with rfl | hm
      · exact List.mem_range.mpr h1
      · obtain ⟨x, hx, rfl⟩ := List.mem_map.mp hm
        exact List.mem_range.mpr (ok.2.2 x hx).1
    have := (nodup.subperm sub).length_le
    simp at this
    omega
  · intro e
    obtain ⟨n, hn, hm⟩ := exists_unused (l := h.slots.map (fun x => x.num)) (k := 2048) (by simpa using e)
    unfold HoldStore.freeSlot?
    rw [List.find?_isSome]
    refine ⟨n, List.mem_range.mpr hn, ?_⟩
    simp only [List.all_eq_true, bne_iff_ne]
    intro x hx he
    exact hm (List.mem_map.mpr ⟨x, hx, he⟩)

/-! ### Admission -/

section

variable (s : State) (before : HoldStore)

/-- STORE_MUST sets a flag on every line and changes nothing else (R111, R174). -/
theorem State.raiseStoreMust_eq : s.raiseStoreMust before = { s with
    alerts := if (!before.atHighMark && s.hst.atHighMark) = true then s.alerts.map (AlertLine.raise .storeMust)
      else s.alerts } := by
  unfold State.raiseStoreMust
  split <;> rfl

end

section

variable (s : State) (k : Fin 64) (n cell : Nat) (data : List Byte)

/-- An admission puts the slot at the young end, counts it for the ring, and may set the STORE_MUST flags (R101, R111). -/
theorem State.admitCell_eq : s.admitCell k n cell data =
    { s.setRing k { s.ring k with counters.admitted := bump (s.ring k).counters.admitted 1 } with
      hst := s.hst.join { num := n, state := .held, cell := cell, data := data, remaining := prefixCopies data,
                          ring := k, admitted := s.sje.epoch }
      alerts :=
        if s.hst.fill < s.hst.highInUse ∧ s.hst.highInUse ≤ s.hst.fill + 1 then
          s.alerts.map (AlertLine.raise .storeMust)
        else s.alerts } := by
  unfold State.admitCell
  dsimp only
  rw [State.raiseStoreMust_eq]
  simp [State.setRing, HoldStore.atHighMark, HoldStore.fill, HoldStore.highInUse, HoldStore.join]

@[simp] theorem State.admitCell_rstnLow : (s.admitCell k n cell data).rstnLow = s.rstnLow := by rw [State.admitCell_eq]; rfl
@[simp] theorem State.admitCell_capacity : (s.admitCell k n cell data).capacity = s.capacity := by rw [State.admitCell_eq]; rfl
@[simp] theorem State.admitCell_clp : (s.admitCell k n cell data).clp = s.clp := by rw [State.admitCell_eq]; rfl
@[simp] theorem State.admitCell_rfe : (s.admitCell k n cell data).rfe = s.rfe := by rw [State.admitCell_eq]; rfl
@[simp] theorem State.admitCell_poolFree : (s.admitCell k n cell data).poolFree = s.poolFree := by rw [State.admitCell_eq]; rfl
@[simp] theorem State.admitCell_sje : (s.admitCell k n cell data).sje = s.sje := by rw [State.admitCell_eq]; rfl
@[simp] theorem State.admitCell_fanInWindow : (s.admitCell k n cell data).fanInWindow = s.fanInWindow := by rw [State.admitCell_eq]; rfl
@[simp] theorem State.admitCell_swu : (s.admitCell k n cell data).swu = s.swu := by rw [State.admitCell_eq]; rfl
@[simp] theorem State.admitCell_dcc : (s.admitCell k n cell data).dcc = s.dcc := by rw [State.admitCell_eq]; rfl
@[simp] theorem State.admitCell_dram : (s.admitCell k n cell data).dram = s.dram := by rw [State.admitCell_eq]; rfl
@[simp] theorem State.admitCell_counters : (s.admitCell k n cell data).counters = s.counters := by rw [State.admitCell_eq]; rfl
@[simp] theorem State.admitCell_pending : (s.admitCell k n cell data).pending = s.pending := by rw [State.admitCell_eq]; rfl

@[simp] theorem State.admitCell_hst : (s.admitCell k n cell data).hst = s.hst.join
    { num := n, state := .held, cell := cell, data := data, remaining := prefixCopies data, ring := k,
      admitted := s.sje.epoch } := by rw [State.admitCell_eq]

theorem State.admitCell_alerts : (s.admitCell k n cell data).alerts =
    if s.hst.fill < s.hst.highInUse ∧ s.hst.highInUse ≤ s.hst.fill + 1 then
      s.alerts.map (AlertLine.raise .storeMust)
    else s.alerts := by rw [State.admitCell_eq]

@[simp] theorem State.admitCell_ring_self : (s.admitCell k n cell data).ring k =
    { s.ring k with counters.admitted := bump (s.ring k).counters.admitted 1 } := by
  rw [State.admitCell_eq]
  exact State.ring_setRing_self s k _

theorem State.admitCell_ring_of_ne {j : Fin 64} (h : j ≠ k) : (s.admitCell k n cell data).ring j = s.ring j := by
  rw [State.admitCell_eq]
  exact State.ring_setRing_of_ne s _ h

/-- A CELL_WRITE at an unheld position is admitted, or is a bypass that joins the write queue, or waits (R101, R102). -/
theorem State.admitOrBypass_cases {u : State} (h : s.admitOrBypass k cell data = some u) :
    (∃ n, s.hst.admits (s.ring k) (prefixCopies data) = true ∧ s.hst.freeSlot? = some n ∧ u = s.admitCell k n cell data) ∨
    (s.hst.admits (s.ring k) (prefixCopies data) = false ∧ s.dcc.writeQ.length < 32 ∧
      u = State.setRing { s with
        dcc.writeQ := s.dcc.writeQ ++ [{ cell := cell, payload := .full data, seq := s.dcc.nextSeq }]
        dcc.nextSeq := s.dcc.nextSeq + 1 } k
          { s.ring k with counters.bypassed := bump (s.ring k).counters.bypassed 1 }) := by
  unfold State.admitOrBypass at h
  dsimp only at h
  split at h
  · rename_i n h1 h2
    exact .inl ⟨n, h1, h2, by cases h; rfl⟩
  · rename_i hne
    obtain ⟨h1, h2⟩ := State.queueWrite_eq_some.mp h
    refine .inr ⟨?_, h1, h2⟩
    by_contra hc
    have hc : s.hst.admits (s.ring k) (prefixCopies data) = true := by simpa using hc
    have : s.hst.freeSlot?.isSome = true := by
      have hc' := hc
      unfold HoldStore.admits at hc'
      simp only [Bool.and_eq_true] at hc'
      exact hc'.1.2
    obtain ⟨n, hn⟩ := Option.isSome_iff_exists.mp this
    exact hne n hc hn

end

/-! ### Slots that leave, and the end of a flush -/

/-- The end of a flush completes the soft reset, and otherwise nothing happens (R116, R118). -/
theorem State.checkFlush_cases (s : State) :
    (s.hst.flush = true ∧ s.hst.slots = [] ∧ s.checkFlush = s.completeSoftReset) ∨
    ((s.hst.flush = false ∨ s.hst.slots ≠ []) ∧ s.checkFlush = s) := by
  unfold State.checkFlush
  cases h : s.hst.flush <;> cases h' : s.hst.slots <;> simp

/-- A sending with a valid claim elides its slot or lowers its remaining reads (R108, R118). -/
theorem State.sendClaim_cases {s : State} {n : Nat} {x : Slot} (h : s.hst.slot? n = some x) :
    (x.state = .held ∧ x.remaining = 1 ∧
      s.sendClaim n = ({ s with counters.elided := bump s.counters.elided 1 }.freeSlot n).checkFlush) ∨
    (¬(x.state = .held ∧ x.remaining = 1) ∧
      s.sendClaim n = { s with hst := s.hst.update n (fun x => { x with remaining := x.remaining - 1 }) }) := by
  unfold State.sendClaim
  rw [h]
  dsimp only
  split
  · rename_i hc; exact .inl ⟨hc.1, hc.2, rfl⟩
  · rename_i hc; exact .inr ⟨hc, rfl⟩

/-- The completion of a retirement frees its slot or returns it to HELD (R113, R118). -/
theorem State.completeRetirement_cases {s : State} {n : Nat} {x : Slot} (h : s.hst.slot? n = some x) :
    (x.state = .retiring ∧ s.completeRetirement n =
      ({ s with counters.retired := bump s.counters.retired 1 }.freeSlot n).checkFlush) ∨
    (x.state = .retiringWritten ∧ s.completeRetirement n =
      { s with hst := (s.hst.remove n).join { x with state := .held, admitted := s.sje.epoch } }) ∨
    (x.state = .held ∧ s.completeRetirement n = s) := by
  unfold State.completeRetirement
  rw [h]
  cases hs : x.state <;> simp [hs]

/-! ### Lists of slots -/

@[simp] theorem HoldStore.update_slots (h : HoldStore) (n : Nat) (f : Slot → Slot) :
    (h.update n f).slots = h.slots.map (fun x => if x.num = n then f x else x) := rfl

@[simp] theorem HoldStore.remove_slots (h : HoldStore) (n : Nat) :
    (h.remove n).slots = h.slots.filter (fun x => x.num != n) := rfl

@[simp] theorem HoldStore.join_slots (h : HoldStore) (x : Slot) : (h.join x).slots = h.slots ++ [x] := rfl

@[simp] theorem HoldStore.expire_slots (now : Epoch) (h : HoldStore) :
    (h.expire now).slots = h.slots.map (Slot.expire now) := rfl

/-- Ageing keeps everything of a slot but its admission epoch (R115). -/
theorem Slot.expire_eq (now : Epoch) (x : Slot) : x.expire now = { x with admitted := (x.expire now).admitted } := by
  unfold Slot.expire
  split <;> rfl

end Sys2Proof.Machine
end

