-- ==== Sys2Proof/Laws/Arbiter.lean ====
section
/-! SUPPORT. What each operation of the DRAM Channel Controller can do, said once: the walk of the ranks, the beginning of
an operation, the retirement in hand, and the ways into and out of QUIET. -/

namespace Sys2Proof.Machine

/-! ### Accesses and QUIET, as the statements name them -/

theorem Channel.access_eq_accessing (c : Channel) (op : Operation) (cell : Nat) :
    c.access op cell = c.accessing op cell := by
  unfold Channel.access Channel.accessing Channel.accessTime Channel.rowHit rowOf
  simp

/-- DRAM work wakes a QUIET channel (R136). -/
theorem State.wake_of_work {s : State} (h : s.dcc.state = .quiet) (w : s.HasDramWork) :
    s.wake = { s with dcc.state := .waking } := by
  unfold State.wake
  rw [if_pos]
  rw [State.urgency_ne_none]
  exact ⟨h, w⟩

/-- Nothing else wakes a channel (R136). -/
theorem State.wake_of_not {s : State} (h : ¬(s.dcc.state = .quiet ∧ s.HasDramWork)) : s.wake = s := by
  unfold State.wake
  rw [if_neg]
  rw [State.urgency_ne_none]
  exact h

/-- In a list in order, the first entry of a kind is the one that comes before all others of the kind. -/
theorem find?_eq_least {α : Type} {l : List α} {place : α → Nat} {test : α → Bool} {e : α}
    (sorted : l.Pairwise (fun a b => place a < place b)) (he : e ∈ l) (ht : test e = true)
    (least : ∀ x ∈ l, test x = true → place e ≤ place x) : l.find? test = some e := by
  induction l with
  | nil => cases he
  | cons a l ih =>
    obtain ⟨ha, hl⟩ := List.pairwise_cons.mp sorted
    rw [List.find?_cons]
    rcases List.mem_cons.mp he with rfl | he
    · rw [ht]
    · cases h : test a with
      | true =>
        have := ha e he
        have := least a List.mem_cons_self h
        omega
      | false => exact ih hl he (fun x hx => least x (List.mem_cons_of_mem _ hx))

/-! ### Reads at rank 3 -/

theorem Channel.eligible_iff {c : Channel} {e : ReadEntry} :
    c.eligible e = true ↔ ∀ w ∈ c.writeQ, w.cell = e.cell → e.seq ≤ w.seq := by
  simp [Channel.eligible, imp_iff_not_or]

theorem Channel.rowHit_iff {c : Channel} {cell : Nat} :
    c.rowHit cell = true ↔ c.banks[bankOf cell] = some (cell / 128) := by simp [Channel.rowHit, rowOf]

/-- What `preferring` keeps: the entries that pass the test, or all of them where none does. -/
theorem mem_preferring {test : ReadEntry → Bool} {es : List ReadEntry} {e : ReadEntry} :
    e ∈ preferring test es ↔ e ∈ es ∧ ((∃ x ∈ es, test x = true) → test e = true) := by
  unfold preferring
  split
  · rename_i h
    have : ∃ x ∈ es, test x = true := by simpa using h
    simp [this]
  · rename_i h
    have : ¬∃ x ∈ es, test x = true := by simpa using h
    simp [this]

theorem preferring_sublist (test : ReadEntry → Bool) (es : List ReadEntry) : (preferring test es).Sublist es := by
  unfold preferring
  split
  · exact List.filter_sublist
  · exact List.Sublist.refl _

theorem preferring_eq_nil {test : ReadEntry → Bool} {es : List ReadEntry} : preferring test es = [] ↔ es = [] := by
  unfold preferring
  split
  · rename_i h
    obtain ⟨x, hx, ht⟩ : ∃ x ∈ es, test x = true := by simpa using h
    constructor
    · intro hn
      exact absurd (List.mem_filter.mpr ⟨hx, ht⟩) (by rw [hn]; exact List.not_mem_nil)
    · intro hn
      simp [hn]
  · exact Iff.rfl

/-- The read that rank 3 chooses is queued and eligible. -/
theorem Channel.chosenRead?_mem {c : Channel} {e : ReadEntry} (h : c.chosenRead? = some e) :
    e ∈ c.readQ ∧ c.eligible e = true := by
  have h := List.mem_of_head? h
  exact List.mem_filter.mp (mem_preferring.mp (mem_preferring.mp h).1).1

/-- Rank 3 chooses no read exactly when none is eligible. -/
theorem Channel.chosenRead?_eq_none {c : Channel} : c.chosenRead? = none ↔ ∀ e ∈ c.readQ, c.eligible e = false := by
  unfold Channel.chosenRead?
  rw [List.head?_eq_none_iff, preferring_eq_nil, preferring_eq_nil, List.filter_eq_nil_iff]
  simp

/-! ### Operations begin -/

/-- What an operation that begins leaves of the channel: all but the queues, the bank records and the operation in
flight. -/
structure Channel.BeginKeeps (c d : Channel) : Prop where
  state : d.state = c.state
  nextSeq : d.nextSeq = c.nextSeq
  inHand : d.inHand = c.inHand
  backlog : d.backlog = c.backlog
  refreshTimer : d.refreshTimer = c.refreshTimer
  refreshInterval : d.refreshInterval = c.refreshInterval
  quietDelay : d.quietDelay = c.quietDelay
  quietTimer : d.quietTimer = c.quietTimer
  readQ : d.readQ.Sublist c.readQ
  writeQ : d.writeQ.Sublist c.writeQ

theorem Channel.beginRead_keeps (c : Channel) (e : ReadEntry) : c.BeginKeeps (c.beginRead e) :=
  ⟨rfl, rfl, rfl, rfl, rfl, rfl, rfl, rfl, List.filter_sublist, List.Sublist.refl _⟩

theorem Channel.beginWrite_keeps (c : Channel) (e : WriteEntry) : c.BeginKeeps (c.beginWrite e) :=
  ⟨rfl, rfl, rfl, rfl, rfl, rfl, rfl, rfl, List.Sublist.refl _, List.filter_sublist⟩

@[simp] theorem Channel.beginRead_inFlight (c : Channel) (e : ReadEntry) :
    (c.beginRead e).inFlight = some { op := .read e false, duration := c.accessTime e.cell } := rfl

@[simp] theorem Channel.beginWrite_inFlight (c : Channel) (e : WriteEntry) :
    (c.beginWrite e).inFlight = some { op := .write e, duration := c.accessTime e.cell } := rfl

@[simp] theorem Channel.beginRead_readQ (c : Channel) (e : ReadEntry) :
    (c.beginRead e).readQ = c.readQ.filter (fun x => x.seq != e.seq) := rfl

@[simp] theorem Channel.beginRead_writeQ (c : Channel) (e : ReadEntry) : (c.beginRead e).writeQ = c.writeQ := rfl

@[simp] theorem Channel.beginWrite_writeQ (c : Channel) (e : WriteEntry) :
    (c.beginWrite e).writeQ = c.writeQ.filter (fun x => x.seq != e.seq) := rfl

@[simp] theorem Channel.beginWrite_readQ (c : Channel) (e : WriteEntry) : (c.beginWrite e).readQ = c.readQ := rfl

/-- The operation performed for the retirement in hand: the oldest read or write of its cell, or the retirement write
itself where none is queued (R130). -/
theorem Channel.beginRetirement_cases (c : Channel) (r : Retirement) :
    (∃ e ∈ c.readQ, e.cell = r.cell ∧ (∀ w, c.writeQ.find? (fun w => w.cell == r.cell) = some w → e.seq < w.seq) ∧
      c.beginRetirement r = c.beginRead e) ∨
    (∃ w ∈ c.writeQ, w.cell = r.cell ∧ (∀ e, c.readQ.find? (fun e => e.cell == r.cell) = some e → w.seq ≤ e.seq) ∧
      c.beginRetirement r = c.beginWrite w) ∨
    ((∀ e ∈ c.readQ, e.cell ≠ r.cell) ∧ (∀ w ∈ c.writeQ, w.cell ≠ r.cell) ∧
      c.beginRetirement r = c.access (.retirement r) r.cell) := by
  unfold Channel.beginRetirement
  cases hr : c.readQ.find? (fun e => e.cell == r.cell) <;> cases hw : c.writeQ.find? (fun e => e.cell == r.cell)
  · refine .inr (.inr ⟨?_, ?_, rfl⟩)
    · simpa using List.find?_eq_none.mp hr
    · simpa using List.find?_eq_none.mp hw
  · rename_i w
    refine .inr (.inl ⟨w, List.mem_of_find?_eq_some hw, ?_, by simp, rfl⟩)
    simpa using List.find?_some hw
  · rename_i e
    refine .inl ⟨e, List.mem_of_find?_eq_some hr, ?_, by simp, rfl⟩
    simpa using List.find?_some hr
  · rename_i e w
    dsimp only
    split
    · rename_i h
      refine .inl ⟨e, List.mem_of_find?_eq_some hr, by simpa using List.find?_some hr, ?_, rfl⟩
      rintro x hx
      cases hx
      exact h
    · rename_i h
      refine .inr (.inl ⟨w, List.mem_of_find?_eq_some hw, by simpa using List.find?_some hw, ?_, rfl⟩)
      rintro x hx
      cases hx
      omega

/-- Whatever the retirement in hand performs keeps what an operation keeps. -/
theorem Channel.beginRetirement_keeps (c : Channel) (r : Retirement) : c.BeginKeeps (c.beginRetirement r) := by
  obtain ⟨e, -, -, -, h⟩ | ⟨w, -, -, -, h⟩ | ⟨-, -, h⟩ := c.beginRetirement_cases r <;> rw [h]
  · exact c.beginRead_keeps e
  · exact c.beginWrite_keeps w
  · exact ⟨rfl, rfl, rfl, rfl, rfl, rfl, rfl, rfl, List.Sublist.refl _, List.Sublist.refl _⟩

/-- A retirement performed: the one in hand goes on, or the oldest HELD slot becomes RETIRING and comes in hand, or there
is none (R112, R130). -/
theorem State.retire_cases (s : State) (u : Urgency) :
    (∃ r, s.dcc.inHand = some r ∧ s.retire u = { s with dcc := s.dcc.beginRetirement r }) ∨
    (∃ x r, s.dcc.inHand = none ∧ s.hst.oldestHeld? = some x ∧ x ∈ s.hst.slots ∧ x.state = .held ∧
      r = { slot := x.num, cell := x.cell, data := x.data, urgency := u } ∧
      s.retire u = { s with
        hst := s.hst.update x.num (fun x => { x with state := .retiring })
        dcc := { s.dcc with inHand := some r }.beginRetirement r }) ∨
    (s.dcc.inHand = none ∧ s.hst.oldestHeld? = none ∧ s.retire u = s) := by
  unfold State.retire
  cases hi : s.dcc.inHand with
  | some r => exact .inl ⟨r, rfl, rfl⟩
  | none =>
    cases ho : s.hst.oldestHeld? with
    | none => exact .inr (.inr ⟨rfl, rfl, rfl⟩)
    | some x =>
      refine .inr (.inl ⟨x, _, rfl, rfl, List.mem_of_find?_eq_some ho, ?_, rfl, rfl⟩)
      simpa using List.find?_some ho

/-! ### The arbiter -/

/-- The ways the walk of the ranks ends (R128). -/
theorem State.choose_cases (s : State) :
    (s.choose = .refresh ∧ 1 ≤ s.dcc.backlog) ∨
    (∃ u, s.choose = .retirement u ∧ s.retirementRank = u ∧ u ≠ .none) ∨
    (∃ e, s.choose = .read e ∧ s.dcc.chosenRead? = some e) ∨
    (∃ w ws, s.choose = .write w ∧ s.dcc.writeQ = w :: ws ∧ s.dcc.chosenRead? = none) ∨
    (s.choose = .nothing ∧ s.retirementRank = .none ∧ s.dcc.backlog = 0 ∧ s.dcc.writeQ = [] ∧
      s.dcc.chosenRead? = none) := by
  unfold State.choose
  split
  · exact .inl ⟨rfl, by omega⟩
  split
  · rename_i h
    exact .inr (.inl ⟨_, rfl, h, by decide⟩)
  cases hr : s.dcc.chosenRead? with
  | some e => exact .inr (.inr (.inl ⟨e, rfl, rfl⟩))
  | none =>
    dsimp only
    unfold State.chooseMiddle
    split
    · exact .inl ⟨rfl, by omega⟩
    cases hw : s.dcc.writeQ with
    | cons w ws => exact .inr (.inr (.inr (.inl ⟨w, ws, rfl, rfl, rfl⟩)))
    | nil =>
      dsimp only
      split
      · rename_i h
        exact .inr (.inl ⟨_, rfl, h, by decide⟩)
      unfold State.chooseLow
      split
      · exact .inl ⟨rfl, by assumption⟩
      split
      · rename_i h
        exact .inr (.inl ⟨_, rfl, h, by decide⟩)
      · refine .inr (.inr (.inr (.inr ⟨rfl, ?_, by omega, rfl, rfl⟩)))
        rename_i h1 h2 h3 h4
        cases h : s.retirementRank <;> simp_all

/-- The arbiter's choice: nothing unless the channel is free in RUN, and then one of the five (R124, R128). -/
theorem State.arbitrate_cases (s : State) :
    s.arbitrate = s ∨
    (s.dcc.state = .run ∧ s.dcc.inFlight = none ∧
      ((1 ≤ s.dcc.backlog ∧ s.arbitrate = { s with dcc := s.dcc.beginRefresh }) ∨
       (∃ u, s.retirementRank = u ∧ u ≠ .none ∧ s.arbitrate = s.retire u) ∨
       (∃ e, s.dcc.chosenRead? = some e ∧ s.arbitrate = { s with dcc := s.dcc.beginRead e }) ∨
       ∃ w ws, s.dcc.writeQ = w :: ws ∧ s.dcc.chosenRead? = none ∧
         s.arbitrate = { s with dcc := s.dcc.beginWrite w })) := by
  unfold State.arbitrate
  split
  · rename_i h
    obtain ⟨hc, hb⟩ | ⟨u, hc, hu⟩ | ⟨e, hc, he⟩ | ⟨w, ws, hc, hw⟩ | ⟨hc, -⟩ := s.choose_cases <;> rw [hc]
    · exact .inr ⟨h.1, h.2, .inl ⟨hb, rfl⟩⟩
    · exact .inr ⟨h.1, h.2, .inr (.inl ⟨u, hu.1, hu.2, rfl⟩)⟩
    · exact .inr ⟨h.1, h.2, .inr (.inr (.inl ⟨e, he, rfl⟩))⟩
    · exact .inr ⟨h.1, h.2, .inr (.inr (.inr ⟨w, ws, hw.1, hw.2, rfl⟩))⟩
    · exact .inl rfl
  · exact .inl rfl

/-! ### QUIET -/

theorem State.quietHolds_iff {s : State} : s.quietHolds = true ↔
    s.dcc.quietDelay ≠ 0 ∧ s.dcc.quietTimer = .expired ∧ s.rfe.rq = [] ∧ s.dcc.readQ = [] ∧ s.dcc.writeQ = [] ∧
      s.dcc.inFlight = none ∧ s.hst.slots = [] ∧ s.dcc.backlog = 0 := by
  simp [State.quietHolds, and_assoc]

theorem State.enterQuiet_cases (s : State) :
    s.enterQuiet = s ∨
    (s.dcc.state = .run ∧ s.quietHolds = true ∧ s.enterQuiet =
      { s with dcc.state := .quiet, dcc.banks := Channel.closedBanks, dcc.refreshTimer := none }) := by
  unfold State.enterQuiet
  split
  · rename_i h; exact .inr ⟨h.1, h.2, rfl⟩
  · exact .inl rfl

theorem State.wake_cases (s : State) :
    s.wake = s ∨ (s.dcc.state = .quiet ∧ s.wake = { s with dcc.state := .waking }) := by
  unfold State.wake
  split
  · rename_i h; exact .inr ⟨h.1, rfl⟩
  · exact .inl rfl

end Sys2Proof.Machine
end

