-- ==== Sys2Proof/Laws/Bytes.lean ====
section
/-! SUPPORT. What the byte strings of the link's frames give: little-endian fields, the cyclic check, and the length of a
request's kind, said once. -/

namespace Sys2Proof.Machine

@[simp] theorem crcRun_nil (c : Nat) : crcRun c [] = c := rfl

@[simp] theorem crcRun_cons (c : Nat) (b : Byte) (bs : List Byte) :
    crcRun c (b :: bs) = crcRun (crcBits 8 (c ^^^ b.toNat)) bs := rfl

theorem crcBit_lt {c : Nat} (h : c < 2 ^ 32) : crcBit c < 2 ^ 32 := by
  unfold crcBit
  split
  · exact Nat.xor_lt_two_pow (by omega) (by decide)
  · omega

theorem crcBits_lt (k : Nat) {c : Nat} (h : c < 2 ^ 32) : crcBits k c < 2 ^ 32 := by
  induction k generalizing c with
  | zero => exact h
  | succ k ih => exact ih (crcBit_lt h)

theorem crcRun_lt (bs : List Byte) {c : Nat} (h : c < 2 ^ 32) : crcRun c bs < 2 ^ 32 := by
  induction bs generalizing c with
  | nil => exact h
  | cons b bs ih => exact ih (crcBits_lt 8 (Nat.xor_lt_two_pow h (by have := b.isLt; omega)))

/-- A check word has 32 bits. -/
theorem crcWord_lt (bs : List Byte) : crcWord bs < 2 ^ 32 :=
  Nat.xor_lt_two_pow (crcRun_lt bs (by decide)) (by decide)

/-- The four bytes of a little-endian field; bytes past the end read as zero. -/
theorem leField_zero_four (f : List Byte) :
    leField f 0 4 =
      (byteAt f 0).toNat + 2 ^ 8 * (byteAt f 1).toNat + 2 ^ 16 * (byteAt f 2).toNat + 2 ^ 24 * (byteAt f 3).toNat := by
  rcases f with _ | ⟨a, _ | ⟨b, _ | ⟨c, _ | ⟨d, t⟩⟩⟩⟩ <;> simp [leField, leNat, byteAt] <;> omega

/-- The request kind of a frame is bits 3..2 of its byte 3 (R178). -/
theorem requestKind_header (f : List Byte) : requestKind (leField f 0 4) = (byteAt f 3).toNat / 4 % 4 := by
  have := (byteAt f 0).isLt
  have := (byteAt f 1).isLt
  have := (byteAt f 2).isLt
  rw [leField_zero_four, requestKind]
  omega

/-- Four bytes spell a 32-bit number exactly when each is its byte. -/
theorem leNat_eq_iff {l : List Byte} {w : Nat} (hl : l.length = 4) (hw : w < 2 ^ 32) :
    leNat l = w ↔ l = (List.range 4).map (fun i => BitVec.ofNat 8 (w / 256 ^ i)) := by
  match l, hl with
  | [a, b, c, d], _ =>
    have := a.isLt
    have := b.isLt
    have := c.isLt
    have := d.isLt
    simp [leNat, List.range_succ, ← BitVec.toNat_inj]
    omega

end Sys2Proof.Machine
end

