-- ==== Sys2Proof/Laws/RingTracker.lean ====
section
/-! SUPPORT. What the tracking of a write or a read at a ring position can do, said once: the cases, the state a tracking
leaves, and what of the part no tracking touches. -/

namespace Sys2Proof.Machine

/-! ### What tracking leaves alone -/

/-- What tracking in ring `k` leaves as it was: everything but ring `k`, the free pool, the alert lines and the device
counters. -/
structure State.TrackKeeps (k : Fin 64) (s u : State) : Prop where
  rstnLow : u.rstnLow = s.rstnLow
  capacity : u.capacity = s.capacity
  clp : u.clp = s.clp
  rfe : u.rfe = s.rfe
  sje : u.sje = s.sje
  fanInWindow : u.fanInWindow = s.fanInWindow
  swu : u.swu = s.swu
  hst : u.hst = s.hst
  dcc : u.dcc = s.dcc
  dram : u.dram = s.dram
  pending : u.pending = s.pending
  ring : ∀ j, j ≠ k → u.ring j = s.ring j

theorem State.TrackKeeps.trans {k : Fin 64} {s t u : State} (a : State.TrackKeeps k s t) (b : State.TrackKeeps k t u) :
    State.TrackKeeps k s u :=
  ⟨b.1.trans a.1, b.2.trans a.2, b.3.trans a.3, b.4.trans a.4, b.5.trans a.5, b.6.trans a.6, b.7.trans a.7,
    b.8.trans a.8, b.9.trans a.9, b.10.trans a.10, b.11.trans a.11, fun j h => (b.12 j h).trans (a.12 j h)⟩

theorem State.setRing_keeps (s : State) (k : Fin 64) (r : Ring) : State.TrackKeeps k s (s.setRing k r) :=
  ⟨rfl, rfl, rfl, rfl, rfl, rfl, rfl, rfl, rfl, rfl, rfl, fun _ h => s.ring_setRing_of_ne r h⟩

theorem State.loseRecords_keeps (s : State) (k : Fin 64) (keep : PacketRecord → Bool) :
    State.TrackKeeps k s (s.loseRecords k keep) :=
  ⟨rfl, rfl, rfl, rfl, rfl, rfl, rfl, rfl, rfl, rfl, rfl, fun _ h => State.ring_setRing_of_ne _ _ h⟩

theorem State.updateSenders_keeps (s : State) (k : Fin 64) (sig : Signature) :
    State.TrackKeeps k s (s.updateSenders k sig) :=
  ⟨rfl, rfl, rfl, rfl, rfl, rfl, rfl, rfl, rfl, rfl, rfl, fun _ h => State.ring_setRing_of_ne _ _ h⟩

/-! ### Records and senders -/

/-- Ring `k` after some of its records are lost (R24, R25). -/
theorem State.loseRecords_ring (s : State) (k : Fin 64) (keep : PacketRecord → Bool) :
    (s.loseRecords k keep).ring k =
      { s.ring k with
        records := (s.ring k).records.filter keep
        counters.lostRecords := bump (s.ring k).counters.lostRecords
          ((s.ring k).records.length - ((s.ring k).records.filter keep).length) } := by
  unfold State.loseRecords
  exact State.ring_setRing_self _ _ _

/-- Ring `k` after a sender update (R42). -/
theorem State.updateSenders_ring (s : State) (k : Fin 64) (sig : Signature) :
    (s.updateSenders k sig).ring k =
      { s.ring k with senders := noteSender (s.ring k).senders sig s.sje.epoch } := by
  unfold State.updateSenders
  exact State.ring_setRing_self _ _ _

/-- The three outcomes of a record creation: refused for an empty pool, refused by the quota, or done (R31, R32). -/
theorem State.createRecord_cases (s : State) (k : Fin 64) (p : Nat) (sm : Summary) :
    (s.poolFree = 0 ∧ s.createRecord k p sm =
      (s.setRing k { s.ring k with
        counters.untracked := bump (s.ring k).counters.untracked 1 }).raiseAll .poolEmpty) ∨
    (s.poolFree ≠ 0 ∧ (s.ring k).settings.quota ≤ (s.ring k).records.length ∧ s.createRecord k p sm =
      s.setRing k { s.ring k with counters.untracked := bump (s.ring k).counters.untracked 1 }) ∨
    (s.poolFree ≠ 0 ∧ (s.ring k).records.length < (s.ring k).settings.quota ∧ s.createRecord k p sm =
      { s with poolFree := s.poolFree - 1 }.setRing k
        { s.ring k with records := (s.ring k).records ++ [newRecord p sm s.sje.epoch] }) := by
  unfold State.createRecord
  dsimp only
  split
  · exact .inl ⟨by assumption, rfl⟩
  · split
    · exact .inr (.inl ⟨by assumption, by assumption, rfl⟩)
    · exact .inr (.inr ⟨by assumption, by omega, rfl⟩)

theorem State.createRecord_keeps (s : State) (k : Fin 64) (p : Nat) (sm : Summary) :
    State.TrackKeeps k s (s.createRecord k p sm) := by
  rcases s.createRecord_cases k p sm with ⟨_, h⟩ | ⟨_, _, h⟩ | ⟨_, _, h⟩ <;> rw [h]
  · exact ⟨rfl, rfl, rfl, rfl, rfl, rfl, rfl, rfl, rfl, rfl, rfl, fun _ h => State.ring_setRing_of_ne s _ h⟩
  · exact State.setRing_keeps s k _
  · exact ⟨rfl, rfl, rfl, rfl, rfl, rfl, rfl, rfl, rfl, rfl, rfl, fun _ h => State.ring_setRing_of_ne _ _ h⟩

theorem State.acceptWrite_keeps (s : State) (k : Fin 64) (p : Nat) (case : WriteCase) (sm : Option Summary) :
    State.TrackKeeps k s (s.acceptWrite k p case sm) := by
  unfold State.acceptWrite
  cases sm with
  | none => exact s.loseRecords_keeps k _
  | some sm =>
    exact (s.loseRecords_keeps k _).trans ((State.createRecord_keeps _ k p sm).trans (State.updateSenders_keeps _ k _))

/-- A record creation changes of its ring only the records and the counter of untracked packets. -/
theorem State.createRecord_ring (s : State) (k : Fin 64) (p : Nat) (sm : Summary) :
    (s.createRecord k p sm).ring k =
      { s.ring k with
        records := ((s.createRecord k p sm).ring k).records
        counters.untracked := ((s.createRecord k p sm).ring k).counters.untracked } := by
  rcases s.createRecord_cases k p sm with ⟨_, h⟩ | ⟨_, _, h⟩ | ⟨_, _, h⟩ <;> rw [h] <;>
    simp only [State.raiseAll_ring, State.ring_setRing_self]

/-- An accepted write changes of its ring, besides the position effect, only the records, the Sender List, and the counters
of lost records and untracked packets. -/
theorem State.acceptWrite_ring (s : State) (k : Fin 64) (p : Nat) (case : WriteCase) (sm : Option Summary) :
    ∃ records senders untracked lost, (s.acceptWrite k p case sm).ring k =
      { s.ring k with
        records := records
        senders := senders
        counters := { (s.ring k).counters with untracked := untracked, lostRecords := lost } } := by
  unfold State.acceptWrite
  cases sm with
  | none => exact ⟨_, _, _, _, s.loseRecords_ring k _⟩
  | some sm =>
    dsimp only
    rw [State.updateSenders_ring, State.createRecord_ring, State.loseRecords_ring]
    exact ⟨_, _, _, _, rfl⟩

/-! ### Cell writes -/

theorem State.trackWrite_keeps (s : State) (k : Fin 64) (p : Nat) (sm : Option Summary) :
    State.TrackKeeps k s (s.trackWrite k p sm) := by
  unfold State.trackWrite
  dsimp only
  split
  · exact s.setRing_keeps k _
  · exact (s.setRing_keeps k _).trans (State.acceptWrite_keeps _ k p _ sm)

/-- The tracking of a write: a rewrite moves nothing but its counter, and any other case is an accepted write (R20). -/
theorem State.trackWrite_cases (s : State) (k : Fin 64) (p : Nat) (sm : Option Summary) :
    ((s.ring k).writeCase p = .rewrite ∧ s.trackWrite k p sm = s.setRing k ((s.ring k).moveWrite p .rewrite)) ∨
    ((s.ring k).writeCase p ≠ .rewrite ∧ s.trackWrite k p sm =
      (s.setRing k ((s.ring k).moveWrite p ((s.ring k).writeCase p))).acceptWrite k p ((s.ring k).writeCase p) sm) := by
  unfold State.trackWrite
  dsimp only
  split
  · rename_i h; exact .inl ⟨h, by rw [h]⟩
  · rename_i h; exact .inr ⟨h, rfl⟩

/-- The tracking of a write leaves of its ring the position effect of its case, and changes only the records, the Sender
List, and the counters of lost records and untracked packets besides. -/
theorem State.trackWrite_ring (s : State) (k : Fin 64) (p : Nat) (sm : Option Summary) :
    ∃ records senders untracked lost, (s.trackWrite k p sm).ring k =
      { (s.ring k).moveWrite p ((s.ring k).writeCase p) with
        records := records
        senders := senders
        counters := { ((s.ring k).moveWrite p ((s.ring k).writeCase p)).counters with
          untracked := untracked, lostRecords := lost } } := by
  rcases s.trackWrite_cases k p sm with ⟨h, e⟩ | ⟨_, e⟩ <;> rw [e]
  · rw [State.ring_setRing_self, h]
    exact ⟨_, _, _, _, rfl⟩
  · obtain ⟨a, b, c, d, h⟩ := State.acceptWrite_ring (s.setRing k ((s.ring k).moveWrite p ((s.ring k).writeCase p))) k p
      ((s.ring k).writeCase p) sm
    rw [h, State.ring_setRing_self]
    exact ⟨_, _, _, _, rfl⟩

/-- Q after a write is the one the statements call `occAfter`. -/
theorem Ring.moveWrite_occ (r : Ring) (p : Nat) : (r.moveWrite p (r.writeCase p)).occ = r.occAfter p := by
  unfold Ring.occAfter Ring.writeCase Ring.inSpan distance
  dsimp only
  by_cases h0 : r.occ = 0
  · simp [h0, Ring.moveWrite]
  rw [if_neg h0, if_neg h0]
  by_cases h1 : p = r.fillPos
  · rw [if_pos h1, if_pos h1]
    split <;> simp [Ring.moveWrite]
  rw [if_neg h1, if_neg h1]
  by_cases h2 : (p + r.active.length - r.drainPos) % r.active.length < r.occ
  · simp [h2, Ring.moveWrite]
  · simp [h2, Ring.moveWrite, distance]

/-- A creation raises POOL_EMPTY exactly where the pool is empty (R32). -/
theorem State.createRecord_alerts (s : State) (k : Fin 64) (p : Nat) (sm : Summary) :
    (s.createRecord k p sm).alerts =
      if s.poolFree = 0 then s.alerts.map (AlertLine.raise .poolEmpty) else s.alerts := by
  rcases s.createRecord_cases k p sm with ⟨h, e⟩ | ⟨h, _, e⟩ | ⟨h, _, e⟩ <;> rw [e] <;> simp [h]

/-- The tracking of a write raises POOL_EMPTY on every line, or nothing. -/
theorem State.trackWrite_alerts (s : State) (k : Fin 64) (p : Nat) (sm : Option Summary) :
    (s.trackWrite k p sm).alerts = s.alerts ∨
      (s.trackWrite k p sm).alerts = s.alerts.map (AlertLine.raise .poolEmpty) := by
  rcases s.trackWrite_cases k p sm with ⟨_, e⟩ | ⟨_, e⟩ <;> rw [e]
  · exact .inl rfl
  unfold State.acceptWrite
  cases sm with
  | none => exact .inl rfl
  | some sm =>
    change (State.createRecord k p sm _).alerts = _ ∨ (State.createRecord k p sm _).alerts = _
    rw [State.createRecord_alerts]
    split
    · exact .inr rfl
    · exact .inl rfl

/-- The alert lines after the tracking of a write: POOL_EMPTY is raised exactly where an accepted first cell finds the pool
empty, the records it has lost counted in (R24, R32). -/
theorem State.trackWrite_alerts_eq (s : State) (k : Fin 64) (p : Nat) (sm : Option Summary) :
    (s.trackWrite k p sm).alerts =
      if (s.ring k).writeCase p ≠ .rewrite ∧ sm ≠ none ∧
        s.poolFree + ((s.ring k).records.length -
          ((s.ring k).records.filter (fun x => (s.ring k).writeCase p != .resync && x.pos != p)).length) = 0 then
        s.alerts.map (AlertLine.raise .poolEmpty)
      else s.alerts := by
  rcases s.trackWrite_cases k p sm with ⟨h, e⟩ | ⟨h, e⟩ <;> rw [e]
  · rw [if_neg (fun hx => hx.1 h)]; rfl
  unfold State.acceptWrite
  cases sm with
  | none => rw [if_neg (fun hx => hx.2.1 rfl)]; rfl
  | some sm =>
    obtain ⟨_, _, _, _, hm⟩ : ∃ fillPos drainPos occ counters, (s.ring k).moveWrite p ((s.ring k).writeCase p) =
        { s.ring k with fillPos := fillPos, drainPos := drainPos, occ := occ, counters := counters } := by
      cases (s.ring k).writeCase p <;> exact ⟨_, _, _, _, rfl⟩
    change (State.createRecord k p sm _).alerts = _
    rw [State.createRecord_alerts]
    simp only [State.loseRecords, State.ring_setRing_self, State.setRing_poolFree, hm, ne_eq, h, not_false_iff, reduceCtorEq,
      true_and]
    rfl

theorem State.createRecord_counters (s : State) (k : Fin 64) (p : Nat) (sm : Summary) :
    (s.createRecord k p sm).counters = s.counters := by
  rcases s.createRecord_cases k p sm with ⟨_, h⟩ | ⟨_, _, h⟩ | ⟨_, _, h⟩ <;> rw [h] <;> rfl

/-- Of the device counters, the tracking of a write moves the eviction counter alone (R52). -/
theorem State.trackWrite_counters (s : State) (k : Fin 64) (p : Nat) (sm : Option Summary) :
    (s.trackWrite k p sm).counters = { s.counters with evictions := (s.trackWrite k p sm).counters.evictions } := by
  rcases s.trackWrite_cases k p sm with ⟨_, h⟩ | ⟨_, h⟩ <;> rw [h]
  · rfl
  · unfold State.acceptWrite
    cases sm with
    | none => rfl
    | some sm =>
      dsimp only [State.updateSenders, State.setRing]
      rw [State.createRecord_counters]
      rfl

/-- The five cases of a write, by their conditions (R20). -/
theorem Ring.writeCase_cases (r : Ring) (p : Nat) :
    (r.occ = 0 ∧ r.writeCase p = .adopt) ∨
    (r.occ ≠ 0 ∧ p = r.fillPos ∧ r.occ < r.active.length ∧ r.writeCase p = .inSequence) ∨
    (r.occ ≠ 0 ∧ p = r.fillPos ∧ r.active.length ≤ r.occ ∧ r.writeCase p = .overrun) ∨
    (r.occ ≠ 0 ∧ p ≠ r.fillPos ∧ distance p r.drainPos r.active.length < r.occ ∧ r.writeCase p = .rewrite) ∨
    (r.occ ≠ 0 ∧ p ≠ r.fillPos ∧ r.occ ≤ distance p r.drainPos r.active.length ∧ r.writeCase p = .resync) := by
  unfold Ring.writeCase Ring.inSpan
  by_cases h0 : r.occ = 0
  · simp [h0]
  · by_cases hp : p = r.fillPos
    · by_cases hn : r.occ < r.active.length
      · simp [h0, hp, hn]
      · simp [h0, hp, hn, Nat.not_lt.mp hn]
    · by_cases hs : distance p r.drainPos r.active.length < r.occ
      · simp [h0, hp, hs]
      · simp [h0, hp, hs, Nat.not_lt.mp hs]

/-- What the position effect of a write leaves of its ring. -/
theorem Ring.moveWrite_keeps (r : Ring) (p : Nat) (case : WriteCase) :
    ∃ fillPos drainPos occ counters, r.moveWrite p case =
      { r with fillPos := fillPos, drainPos := drainPos, occ := occ, counters := counters } := by
  cases case <;> exact ⟨_, _, _, _, rfl⟩

/-! ### Cell reads -/

/-- The three cases of a read, by their conditions (R26). -/
theorem Ring.readCase_cases (r : Ring) (p : Nat) :
    (r.occ ≠ 0 ∧ p = r.drainPos ∧ r.readCase p = .advance) ∨
    (r.occ ≠ 0 ∧ p ≠ r.drainPos ∧ distance p r.drainPos r.active.length < r.occ ∧ r.readCase p = .skipAhead) ∨
    ((r.occ = 0 ∨ p ≠ r.drainPos ∧ r.occ ≤ distance p r.drainPos r.active.length) ∧ r.readCase p = .stray) := by
  unfold Ring.readCase Ring.inSpan
  by_cases h0 : r.occ = 0
  · simp [h0]
  · by_cases hp : p = r.drainPos
    · simp [h0, hp]
    · by_cases hs : distance p r.drainPos r.active.length < r.occ
      · simp [h0, hp, hs]
      · simp [h0, hp, hs, Nat.not_lt.mp hs]

/-- What the position effect of a read leaves of its ring. -/
theorem Ring.moveRead_keeps (r : Ring) (p : Nat) (case : ReadCase) :
    ∃ drainPos occ reads counters, r.moveRead p case =
      { r with drainPos := drainPos, occ := occ, reads := reads, counters := counters } := by
  cases case <;> exact ⟨_, _, _, _, rfl⟩

/-- A lookup that finds nothing: no record of the position has copies left (R33). -/
theorem lookupRecord_none {p : Nat} {rs : List PacketRecord} :
    lookupRecord p rs = none ↔ ∀ x ∈ rs, ¬(x.pos = p ∧ 0 < x.left) := by
  induction rs with
  | nil => simp [lookupRecord]
  | cons rec rs ih =>
    unfold lookupRecord
    split
    · rename_i h; simp only [reduceCtorEq, List.mem_cons, forall_eq_or_imp, h, and_self, not_true, false_and]
    · rename_i h; simp only [Option.map_eq_none_iff, ih, List.mem_cons, forall_eq_or_imp, h, not_false_iff, true_and]

/-- A lookup that finds a record: the first of its position with copies left (R33). -/
theorem lookupRecord_some {p : Nat} {rs older newer : List PacketRecord} {x : PacketRecord} :
    lookupRecord p rs = some (older, x, newer) ↔
      rs = older ++ x :: newer ∧ x.pos = p ∧ 0 < x.left ∧ ∀ y ∈ older, ¬(y.pos = p ∧ 0 < y.left) := by
  induction rs generalizing older with
  | nil => simp [lookupRecord]
  | cons rec rs ih =>
    unfold lookupRecord
    split
    · rename_i h
      constructor
      · intro e; cases e; exact ⟨rfl, h.1, h.2, by simp⟩
      · rintro ⟨e, hp, hl, ho⟩
        cases older with
        | nil => simp at e; obtain ⟨rfl, rfl⟩ := e; rfl
        | cons y older => simp at e; exact absurd h (e.1 ▸ ho y List.mem_cons_self)
    · rename_i h
      simp only [Option.map_eq_some_iff, Prod.mk.injEq, Prod.exists]
      constructor
      · rintro ⟨a, b, c, e, rfl, rfl, rfl⟩
        obtain ⟨e1, e2, e3, e4⟩ := ih.mp e
        exact ⟨by simp [e1], e2, e3, by
          intro y hy
          rcases List.mem_cons.mp hy with rfl | hy
          · exact h
          · exact e4 y hy⟩
      · rintro ⟨e, hp, hl, ho⟩
        cases older with
        | nil => simp at e; obtain ⟨rfl, -⟩ := e; exact absurd ⟨hp, hl⟩ h
        | cons y older =>
          simp at e
          obtain ⟨rfl, e⟩ := e
          exact ⟨older, x, newer, ih.mpr ⟨e, hp, hl, fun z hz => ho z (List.mem_cons_of_mem _ hz)⟩, rfl, rfl, rfl⟩

/-- The two outcomes of a header lookup (R33, R78). -/
theorem State.headerRead_cases (s : State) (k : Fin 64) (p : Nat) :
    (lookupRecord p (s.ring k).records = none ∧ s.headerRead k p = (s, .plain)) ∨
    ∃ older x newer, lookupRecord p (s.ring k).records = some (older, x, newer) ∧
      let m := (s.ring k).markRead x (s.ring k).occ
      let records := older.filter PacketRecord.wasRead ++ (x.afterRead m.2 ++ newer)
      s.headerRead k p =
        ({ s with poolFree := s.poolFree + ((s.ring k).records.length - records.length) }.setRing k
          { m.1 with
            records := records
            counters.skippedUnread :=
              bump m.1.counters.skippedUnread (older.length - (older.filter PacketRecord.wasRead).length) },
         { decision := m.2, header := headerPlace x m.2 }) := by
  unfold State.headerRead
  dsimp only
  cases h : lookupRecord p (s.ring k).records with
  | none => exact .inl ⟨rfl, rfl⟩
  | some y => obtain ⟨older, x, newer⟩ := y; exact .inr ⟨older, x, newer, rfl, rfl⟩

/-- A decision changes of its ring only the mark credit and the counters (R79, R87). -/
theorem Ring.markRead_keeps (r : Ring) (x : PacketRecord) (q : Nat) :
    ∃ credit counters, (r.markRead x q).1 = { r with credit := credit, counters := counters } := by
  unfold Ring.markRead
  split
  · exact ⟨_, _, rfl⟩
  · exact ⟨_, _, rfl⟩

theorem State.headerRead_keeps (s : State) (k : Fin 64) (p : Nat) : State.TrackKeeps k s (s.headerRead k p).1 := by
  rcases s.headerRead_cases k p with ⟨_, h⟩ | ⟨older, x, newer, _, h⟩ <;> rw [h]
  · exact ⟨rfl, rfl, rfl, rfl, rfl, rfl, rfl, rfl, rfl, rfl, rfl, fun _ _ => rfl⟩
  · exact ⟨rfl, rfl, rfl, rfl, rfl, rfl, rfl, rfl, rfl, rfl, rfl, fun _ h => State.ring_setRing_of_ne _ _ h⟩

theorem State.trackRead_keeps (s : State) (k : Fin 64) (p : Nat) : State.TrackKeeps k s (s.trackRead k p).1 := by
  unfold State.trackRead
  exact (s.headerRead_keeps k p).trans (State.setRing_keeps _ k _)

/-- Tracking of a read sets no flag and no device counter. -/
theorem State.trackRead_alerts_counters (s : State) (k : Fin 64) (p : Nat) :
    (s.trackRead k p).1.alerts = s.alerts ∧ (s.trackRead k p).1.counters = s.counters := by
  unfold State.trackRead
  rcases s.headerRead_cases k p with ⟨_, h⟩ | ⟨older, x, newer, _, h⟩ <;> simp [h]

end Sys2Proof.Machine
end

