-- ==== Sys2Proof/Laws/Take.lean ====
section
/-! SUPPORT. The takes: what each of the four does with the head of the Request Queue, and the cases of a read that meets
the store. -/

namespace Sys2Proof.Machine

/-! ### The head -/

section

variable (s : State) (rest : List Request) (cell : Nat)

@[simp] theorem State.popHead_cellClass : (s.popHead rest).cellClass cell = s.cellClass cell := rfl

@[simp] theorem State.popHead_ringClass : (s.popHead rest).ringClass cell = s.ringClass cell := rfl

/-- The state a take starts from is the one the statements call `afterHead`. -/
theorem State.popHead_eq_afterHead : s.popHead rest = s.afterHead rest := rfl

end

/-- The take of a head: its outcome settles, or the head waits and nothing changes (R144). -/
theorem State.takeHead_cons {s : State} {r : Request} {rest : List Request} (h : s.rfe.rq = r :: rest) :
    s.takeHead = ((s.popHead rest).takeRequest r).elim s State.settle := by
  unfold State.takeHead
  rw [h]
  dsimp only
  split <;> rename_i e <;> simp [e]

theorem exec_cellWrite {s : State} {cell : Nat} {data : List Byte} {rest : List Request}
    (h : s.rfe.rq = .cellWrite cell data :: rest) :
    exec .cellWrite s = .next (((s.popHead rest).takeCellWrite cell data).elim s State.settle) := by
  simp only [exec, execCellWrite, State.takeIf, State.headIs, h, Request.isCellWrite, if_true, State.takeHead_cons h,
    State.takeRequest]

theorem exec_wordWrite {s : State} {cell w : Nat} {data : List Byte} {rest : List Request}
    (h : s.rfe.rq = .wordWrite cell w data :: rest) :
    exec .wordWrite s = .next (((s.popHead rest).takeWordWrite cell w data).elim s State.settle) := by
  simp only [exec, execWordWrite, State.takeIf, State.headIs, h, Request.isWordWrite, if_true, State.takeHead_cons h,
    State.takeRequest]

theorem exec_cellRead {s : State} {cell : Nat} {tag : Tag} {rest : List Request}
    (h : s.rfe.rq = .cellRead cell tag :: rest) :
    exec .cellRead s = .next (((s.popHead rest).takeCellRead cell tag).elim s State.settle) := by
  simp only [exec, execCellRead, State.takeIf, State.headIs, h, Request.isCellRead, if_true, State.takeHead_cons h,
    State.takeRequest]

theorem exec_wordRead {s : State} {cell w : Nat} {tag : Tag} {rest : List Request}
    (h : s.rfe.rq = .wordRead cell w tag :: rest) :
    exec .wordRead s = .next (((s.popHead rest).takeWordRead cell w tag).elim s State.settle) := by
  simp only [exec, execWordRead, State.takeIf, State.headIs, h, Request.isWordRead, if_true, State.takeHead_cons h,
    State.takeRequest]

/-! ### Classes -/

section

variable {s : State} {cell : Nat}

theorem State.cellClass_outOfRange (h : s.capacity.cells ≤ cell) : s.cellClass cell = .outOfRange := by
  rcases s.cellClass_cases cell with ⟨_, e⟩ | ⟨_, _, _⟩ | ⟨_, _, _⟩ | ⟨_, _⟩ <;> first | assumption | omega

theorem State.cellClass_control (h : s.capacity.cells - 32 ≤ cell) (h' : cell < s.capacity.cells) :
    s.cellClass cell = .control (cell - (s.capacity.cells - 32)) := by
  rcases s.cellClass_cases cell with ⟨_, e⟩ | ⟨_, _, _⟩ | ⟨_, _, _⟩ | ⟨_, _⟩ <;> first | assumption | omega

theorem State.cellClass_report (h : s.capacity.cells - 128 ≤ cell) (h' : cell < s.capacity.cells - 32) :
    s.cellClass cell = .report (cell - (s.capacity.cells - 128)) := by
  rcases s.cellClass_cases cell with ⟨_, e⟩ | ⟨_, _, _⟩ | ⟨_, _, _⟩ | ⟨_, _⟩ <;> first | assumption | omega

theorem State.cellClass_buffer (h : cell < s.capacity.cells - 128) : s.cellClass cell = .buffer := by
  rcases s.cellClass_cases cell with ⟨_, e⟩ | ⟨_, _, _⟩ | ⟨_, _, _⟩ | ⟨_, _⟩ <;> first | assumption | omega

end

/-! ### Writes and reads of buffer cells -/

/-- A write to a buffer cell that is no ring position (R100, R148). -/
theorem State.takeCellWrite_plain {s : State} {cell : Nat} {data : List Byte} (h : s.cellClass cell = .buffer)
    (h' : ∀ k p, s.ringClass cell ≠ .position k p) : s.takeCellWrite cell data = s.takePlainWrite cell data := by
  unfold State.takeCellWrite
  rw [h]
  dsimp only
  split <;> rename_i e
  · exact absurd e (h' _ _)
  · rfl
  · rfl

/-- The admission test after a write's own tracking is the one the statements call `WouldAdmit` (R100). -/
theorem State.admits_trackWrite_iff (s : State) (k : Fin 64) (p : Nat) (data : List Byte) (sm : Option Summary) :
    (s.trackWrite k p sm).hst.admits ((s.trackWrite k p sm).ring k) (prefixCopies data) = true ↔
      s.WouldAdmit k p data := by
  obtain ⟨a, b, c, d, h⟩ := s.trackWrite_ring k p sm
  obtain ⟨e1, e2, e3⟩ : ((s.ring k).moveWrite p ((s.ring k).writeCase p)).settings = (s.ring k).settings ∧
      ((s.ring k).moveWrite p ((s.ring k).writeCase p)).state = (s.ring k).state ∧
      ((s.ring k).moveWrite p ((s.ring k).writeCase p)).drain = (s.ring k).drain := by
    cases (s.ring k).writeCase p <;> exact ⟨rfl, rfl, rfl⟩
  rw [(s.trackWrite_keeps k p sm).hst, h]
  unfold HoldStore.admits State.WouldAdmit prefixCopies
  simp only [Bool.and_eq_true, HoldStore.freeSlot?_isSome_iff, e1, e2, e3, Ring.moveWrite_occ, decide_eq_true_eq,
    bne_iff_ne, Bool.not_eq_true', and_assoc]

/-- A read of a buffer cell that is no ring position (R149). -/
theorem State.takeBufferCellRead_plain {s : State} {cell id : Nat} {tag : Tag}
    (h' : ∀ k p, s.ringClass cell ≠ .position k p) :
    s.takeBufferCellRead cell id tag = s.takeBufferRead cell id tag .cell .plain false := by
  unfold State.takeBufferCellRead
  split <;> rename_i e
  · exact absurd e (h' _ _)
  · rfl
  · rfl

/-- A read of a buffer cell is a hit, or a miss that joins the read queue, or waits (R106, R107, R125). -/
theorem State.takeBufferRead_cases {s u : State} {cell id : Nat} {tag : Tag} {x : Extent} {h : HeaderRead} {boost : Bool}
    (e : s.takeBufferRead cell id tag x h boost = some u) :
    (∃ slot, s.hst.lookup? cell = some slot ∧ u = s.takeHit slot id tag x h) ∨
    (s.hst.lookup? cell = none ∧ s.dcc.readQ.length < 32 ∧
      { s with counters.misses := bump s.counters.misses 1 }.takeDramRead cell id tag x h boost = some u) := by
  unfold State.takeBufferRead at e
  split at e
  · rename_i slot hs; cases e; exact .inl ⟨slot, hs, rfl⟩
  · rename_i hs
    refine .inr ⟨hs, ?_, e⟩
    unfold State.takeDramRead at e
    exact (State.queueRead_eq_some.mp e).1

end Sys2Proof.Machine
end

