-- ==== Sys2Proof/Laws/Control.lean ====
section
/-! SUPPORT. Control-window writes: where each control word lies, and the take of a WORD_WRITE that carries one. -/

namespace Sys2Proof.Machine

/-- Ring words 0..6 of ring `k` (R158). -/
theorem controlWord_ring (k : Fin 64) (j : Nat) (hj : j < 7) :
    controlWord (1 + k.val / 4) (8 * (k.val % 4) + j) = .ring k ⟨j, hj⟩ := by
  have := k.isLt
  have e1 : (8 * (k.val % 4) + j) % 8 = j := by omega
  have e2 : ringNumber (4 * (1 + k.val / 4 - 1) + (8 * (k.val % 4) + j) / 8) = k := by
    apply Fin.ext; simp [ringNumber, Fin.ofNat]; omega
  unfold controlWord
  rw [if_neg (by omega), if_pos (by omega), e1, e2]
  simp [ringWord, hj]

/-- The enable word of ring `k` (R158). -/
theorem controlWord_enable (k : Fin 64) : controlWord (1 + k.val / 4) (8 * (k.val % 4) + 7) = .enable k := by
  have := k.isLt
  have e1 : (8 * (k.val % 4) + 7) % 8 = 7 := by omega
  have e2 : ringNumber (4 * (1 + k.val / 4 - 1) + (8 * (k.val % 4) + 7) / 8) = k := by
    apply Fin.ext; simp [ringNumber, Fin.ofNat]; omega
  unfold controlWord
  rw [if_neg (by omega), if_pos (by omega), e1, e2]
  simp [ringWord]

/-- A WORD_WRITE of control cell `n` at the head joins the write queue, and its word is decoded in the same take (R157,
R159). -/
theorem State.takeHead_controlWord {s : State} {n w : Nat} {d : List Byte} {rest : List Request} (hn : n < 32)
    (hq : s.dcc.writeQ.length < 32) (h : s.rfe.rq = .wordWrite (s.capacity.cells - 32 + n) w d :: rest) :
    s.takeHead = State.settle
      ((s.queuedWrite rest (s.capacity.cells - 32 + n) (.partialWord w d)).writeControl (controlWord n w) d) := by
  have := s.capacity.cells_large
  have hc : s.cellClass (s.capacity.cells - 32 + n) = .control n := by
    rw [State.cellClass_control (by omega) (by omega)]; congr; omega
  have hw : (s.popHead rest).queueWrite (s.capacity.cells - 32 + n) (.partialWord w d) =
      some (s.queuedWrite rest (s.capacity.cells - 32 + n) (.partialWord w d)) :=
    State.queueWrite_eq_some.mpr ⟨hq, rfl⟩
  simp only [State.takeHead_cons h, State.takeRequest, State.takeWordWrite, State.popHead_cellClass, hc,
    State.takeControlWord, hw]
  rfl

/-- Such a head carries its own word and no other (R157). -/
theorem State.headCarries_controlWord {s : State} {n w : Nat} {d : List Byte} {rest : List Request} (hn : n < 32)
    (h : s.rfe.rq = .wordWrite (s.capacity.cells - 32 + n) w d :: rest) (test : ControlWord → List Byte → Bool) :
    s.headCarries test = test (controlWord n w) d := by
  have := s.capacity.cells_large
  have hc : s.cellClass (s.capacity.cells - 32 + n) = .control n := by
    rw [State.cellClass_control (by omega) (by omega)]; congr; omega
  simp [State.headCarries, h, State.controlWords, hc]

end Sys2Proof.Machine
end

