-- ==== Sys2Proof/Laws/Flags.lean ====
section
/-! SUPPORT. The fields of an alert line after each of its updates. -/

namespace Sys2Proof.Machine

section

variable (e : Event) (l : AlertLine)

@[simp] theorem AlertLine.raise_flags : (l.raise e).flags = l.flags ||| e.bit := by
  unfold AlertLine.raise; split <;> rfl

@[simp] theorem AlertLine.raise_mode : (l.raise e).mode = l.mode := by unfold AlertLine.raise; split <;> rfl

@[simp] theorem AlertLine.raise_width : (l.raise e).width = l.width := by unfold AlertLine.raise; split <;> rfl

@[simp] theorem AlertLine.raise_mask : (l.raise e).mask = l.mask := by unfold AlertLine.raise; split <;> rfl

end

/-- Bit n of the bit of an event: set for the event's own number alone (R178). -/
theorem Event.getLsbD_bit (e : Event) (n : Nat) : e.bit.getLsbD n = decide (n = e.number) := by
  have : e.number < 7 := by cases e <;> decide
  unfold Event.bit
  rw [BitVec.getLsbD_shiftLeft, BitVec.getLsbD_one]
  by_cases h : n = e.number
  · subst h; simp [this]
  · simp only [h, decide_false]
    by_cases h1 : n < e.number
    · simp [h1]
    · simp; omega

/-- The flags of a line after an event: the event's own, and those that were set (R174). -/
theorem AlertLine.getLsbD_raise (e : Event) (l : AlertLine) (n : Nat) :
    (l.raise e).flags.getLsbD n = (l.flags.getLsbD n || decide (n = e.number)) := by
  rw [AlertLine.raise_flags, BitVec.getLsbD_or, Event.getLsbD_bit]

/-- A mask or a set of flags holds an event's bit, or does not. -/
theorem Event.and_bit_eq_zero (x : BitVec 7) (e : Event) : x &&& e.bit = 0 ↔ x.getLsbD e.number = false := by
  have : e.number < 7 := by cases e <;> decide
  constructor
  · intro h
    have := congrArg (fun y => y.getLsbD e.number) h
    simpa [Event.getLsbD_bit] using this
  · intro h
    apply BitVec.eq_of_getLsbD_eq
    intro i _
    rw [BitVec.getLsbD_and, Event.getLsbD_bit]
    by_cases hi : i = e.number
    · subst hi; simp [h]
    · simp [hi]

@[simp] theorem AlertLine.clear_pulse (bits : BitVec 7) (l : AlertLine) : (l.clear bits).pulse = l.pulse := rfl

@[simp] theorem AlertLine.configure_pulse (m : AlertMode) (w : PulseWidth) (k : BitVec 7) (l : AlertLine) :
    (l.configure m w k).pulse = l.pulse := rfl

@[simp] theorem AlertLine.configure_flags (m : AlertMode) (w : PulseWidth) (k : BitVec 7) (l : AlertLine) :
    (l.configure m w k).flags = l.flags := rfl

@[simp] theorem AlertLine.endPulse_flags (l : AlertLine) : l.endPulse.flags = l.flags := rfl

end Sys2Proof.Machine
end

