-- ==== Sys2Proof/Laws/Link.lean ====
section
/-! SUPPORT. What each operation of the Cell Link Port can do, said once. -/

namespace Sys2Proof.Machine

theorem State.startTraining_cases (s : State) :
    s.startTraining = s ∨
    (s.clp.state = .down ∧ s.dcc.state ≠ .init ∧ s.clp.lanes = 0xFF ∧
      s.startTraining = { s with clp.state := .training, clp.attempt := 1 }) := by
  unfold State.startTraining
  split
  · rename_i h
    exact .inr ⟨h.1, h.2.1, by simpa [LinkPort.allLocked] using h.2.2, rfl⟩
  · exact .inl rfl

/-- The start of a READ_DATA frame: the entry it names is SENDING, or there is none (R151). -/
theorem State.startResponse_cases (s : State) (n : Nat) (rest : List Nat) :
    s.startResponse n rest = s ∨
    ∃ r ∈ s.rfe.responses, r.id = n ∧ s.startResponse n rest =
      { s with
        clp.tx := .readData n (readDataFrame r), clp.lastWasCredit := false, rfe.ready := rest
        rfe.responses := s.rfe.responses.map (fun r => if r.id = n then { r with state := .sending } else r) } := by
  unfold State.startResponse
  cases h : s.rfe.responses.find? (fun r => r.id == n) with
  | none => exact .inl rfl
  | some r => exact .inr ⟨r, List.mem_of_find?_eq_some h, by simpa using List.find?_some h, rfl⟩

/-- The transmitter's choice: nothing, a CREDIT frame of the whole owed count, or the first READY entry (R151). -/
theorem State.transmit_cases (s : State) :
    s.transmit = s ∨
    (s.clp.state = .up ∧ s.clp.tx = .idle ∧
      ((0 < s.clp.owed ∧ s.transmit =
          { s with clp.tx := .credit (creditFrame s.clp.owed), clp.owed := 0, clp.lastWasCredit := true }) ∨
       ∃ n rest, s.rfe.ready = n :: rest ∧ s.transmit = s.startResponse n rest)) := by
  unfold State.transmit
  split
  · rename_i h
    split
    · rename_i h'
      exact .inr ⟨h.1, h.2, .inl ⟨h'.1, rfl⟩⟩
    · cases hr : s.rfe.ready with
      | cons n rest => exact .inr ⟨h.1, h.2, .inr ⟨n, rest, rfl, rfl⟩⟩
      | nil =>
        dsimp only
        split
        · rename_i h'
          exact .inr ⟨h.1, h.2, .inl ⟨h', rfl⟩⟩
        · exact .inl rfl
  · exact .inl rfl

/-- The link goes to DOWN: by a link drop from UP, without one from TRAINING (R140, R154). -/
theorem State.linkDown_cases (s : State) :
    (s.clp.state = .up ∧ s.linkDown = s.dropLink) ∨
    (s.clp.state = .training ∧ s.linkDown = { s with clp.state := .down, clp.attempt := 0 }) ∨
    (s.clp.state = .down ∧ s.linkDown = s) := by
  unfold State.linkDown
  cases h : s.clp.state <;> simp

/-- The reception of a frame: it fails its check, is accepted, or meets a full queue (R142). -/
theorem State.receiveFrame_cases (s : State) (frame : List Byte) :
    (decodeFrame frame = none ∧ s.receiveFrame frame = s.failFrame) ∨
    ∃ r, decodeFrame frame = some r ∧
      ((s.rfe.rq.length < 64 ∧ s.receiveFrame frame = s.acceptRequest r) ∨
       (64 ≤ s.rfe.rq.length ∧ s.receiveFrame frame = s.overflowFrame)) := by
  unfold State.receiveFrame
  cases h : decodeFrame frame with
  | none => exact .inl ⟨rfl, rfl⟩
  | some r =>
    refine .inr ⟨r, rfl, ?_⟩
    dsimp only
    split
    · rename_i h'; exact .inl ⟨h', rfl⟩
    · rename_i h'; exact .inr ⟨by omega, rfl⟩

end Sys2Proof.Machine
end

