-- ==== Sys2Proof/Laws/Memory.lean ====
section
/-! SUPPORT. The DRAM array: every write keeps the canonical form, and a read after a write gives the bytes written and
leaves every other byte alone. -/

namespace Sys2Proof.Machine

/-- The memory of the state after a power-on reset has the canonical form. -/
theorem Memory.wf_reset : State.reset.dram.mem.wf := List.Pairwise.nil

theorem Memory.mem_run {a : Nat} {bs : List Byte} {e : Host.Cell} (h : e ∈ Memory.run a bs) :
    a ≤ e.1 ∧ e.1 < a + bs.length := by
  induction bs generalizing a with
  | nil => simp [Memory.run] at h
  | cons b bs ih =>
    simp only [Memory.run, List.mem_cons] at h
    rcases h with rfl | h
    · simp
    · have := ih h; simp; omega

theorem Memory.run_wf (a : Nat) (bs : List Byte) : (Memory.run a bs).wf := by
  induction bs generalizing a with
  | nil => exact List.Pairwise.nil
  | cons b bs ih =>
    refine List.pairwise_cons.mpr ⟨fun e he => ?_, ih (a + 1)⟩
    have := Memory.mem_run he
    dsimp only; omega

/-- A write keeps the canonical form. -/
theorem Memory.write_wf {m : Memory} (h : m.wf) (a : Nat) (bs : List Byte) : (m.write a bs).wf := by
  unfold Memory.write
  refine List.pairwise_append.mpr ⟨h.filter _, ?_, ?_⟩
  · refine List.pairwise_append.mpr ⟨Memory.run_wf a bs, h.filter _, fun x hx y hy => ?_⟩
    have := Memory.mem_run hx
    simp only [List.mem_filter, decide_eq_true_eq] at hy
    omega
  · intro x hx y hy
    simp only [List.mem_filter, decide_eq_true_eq] at hx
    rcases List.mem_append.mp hy with hy | hy
    · have := Memory.mem_run hy; omega
    · simp only [List.mem_filter, decide_eq_true_eq] at hy; omega

theorem Memory.find?_run (a : Nat) (bs : List Byte) (x : Nat) :
    ((Memory.run a bs).find? (fun e => e.1 == x)).map (·.2) =
      if a ≤ x ∧ x < a + bs.length then bs[x - a]? else none := by
  induction bs generalizing a with
  | nil => simp [Memory.run]
  | cons b bs ih =>
    simp only [Memory.run, List.find?_cons]
    by_cases h : a = x
    · subst h; simp
    · rw [show (a == x) = false by simpa using h]
      simp only [ih, List.length_cons]
      by_cases h' : a ≤ x ∧ x < a + (bs.length + 1)
      · rw [if_pos h', if_pos (by omega), show x - a = (x - (a + 1)) + 1 by omega, List.getElem?_cons_succ]
      · rw [if_neg h', if_neg (by omega)]

theorem Memory.find?_filter_of (m : Memory) (keep : Host.Cell → Bool) (x : Nat)
    (h : ∀ e : Host.Cell, e.1 = x → keep e = true) :
    (m.filter keep).find? (fun e => e.1 == x) = m.find? (fun e => e.1 == x) := by
  induction m with
  | nil => rfl
  | cons e m ih =>
    by_cases hx : e.1 = x
    · simp [h e hx, hx]
    · by_cases hk : keep e = true <;> simp [hk, hx, ih]

theorem Memory.find?_filter_none (m : Memory) (keep : Host.Cell → Bool) (x : Nat)
    (h : ∀ e : Host.Cell, e.1 = x → keep e = false) : (m.filter keep).find? (fun e => e.1 == x) = none := by
  rw [List.find?_eq_none]
  intro e he
  have := (List.mem_filter.mp he).2
  intro hx
  simp [h e (by simpa using hx)] at this

/-- A read after a write: the byte written inside the run, and the former byte everywhere else. -/
theorem Memory.read?_write (m : Memory) (a : Nat) (bs : List Byte) (x : Nat) :
    (m.write a bs).read? x = if a ≤ x ∧ x < a + bs.length then bs[x - a]? else m.read? x := by
  unfold Memory.write Memory.read?
  rw [List.find?_append, List.find?_append]
  by_cases h1 : x < a
  · rw [Memory.find?_filter_of _ _ _ (fun e he => by simpa [he] using h1),
      Memory.find?_filter_none m (fun e => decide (a + bs.length ≤ e.1)) x (fun e he => by simp [he]; omega),
      if_neg (by omega)]
    have := Memory.find?_run a bs x
    rw [if_neg (by omega)] at this
    rw [Option.map_eq_none_iff.mp this]
    simp
  · rw [Memory.find?_filter_none m (fun e => decide (e.1 < a)) x (fun e he => by simp [he]; omega)]
    have hr := Memory.find?_run a bs x
    by_cases h2 : x < a + bs.length
    · rw [if_pos ⟨by omega, h2⟩] at hr ⊢
      rw [Memory.find?_filter_none m (fun e => decide (a + bs.length ≤ e.1)) x (fun e he => by simp [he]; omega)]
      simpa using hr
    · rw [if_neg (by omega)] at hr ⊢
      rw [Option.map_eq_none_iff.mp hr, Memory.find?_filter_of _ _ _ (fun e he => by simp [he]; omega)]
      simp

/-- The completion of a write keeps the canonical form. -/
theorem Dram.store_wf {d : Dram} (h : d.mem.wf) (cell : Nat) (w : WriteData) : (d.store cell w).mem.wf :=
  Memory.write_wf h _ _

/-- A power-on reset keeps the canonical form. -/
theorem Dram.powerOn_wf {d : Dram} (h : d.mem.wf) (f : Option InFlight) (cause : ResetCause) :
    (d.powerOn f cause).mem.wf := by
  cases cause with
  | powerApplied => exact List.Pairwise.nil
  | rstnFalls =>
    simp only [Dram.powerOn, Dram.cutOff]
    split
    · split
      · exact Dram.store_wf h _ _
      · exact h
    · exact h

/-- The byte a read returns after a write to the array. -/
theorem Dram.byte_store (d : Dram) (cell : Nat) (w : WriteData) (x : Nat) :
    (d.store cell w).byte x =
      if w.addr cell ≤ x ∧ x < w.addr cell + w.bytes.length then w.bytes.getD (x - w.addr cell) 0 else d.byte x := by
  unfold Dram.byte Dram.store
  dsimp only
  rw [Memory.read?_write]
  split
  · rename_i h
    rw [List.getElem?_eq_getElem (by omega), List.getD_eq_getElem _ _ (by omega)]
    rfl
  · rfl

end Sys2Proof.Machine
end

