-- ==== Sys2Proof/Laws/Report.lean ====
section
/-! SUPPORT. Little-endian fields of byte strings, and the encodings of the report records as places in the lists of
11_layouts_and_signals.md. -/

namespace Sys2Proof.Machine

/-! ### Little-endian bytes -/

@[simp] theorem leBytes_length (n v : Nat) : (leBytes n v).length = n := by
  induction n generalizing v with
  | zero => rfl
  | succ n ih => simp [leBytes, ih]

@[simp] theorem zeros_length (n : Nat) : (zeros n).length = n := by simp [zeros]

/-- The bytes of a number spell its low part. -/
@[simp] theorem leNat_leBytes (n v : Nat) : leNat (leBytes n v) = v % 256 ^ n := by
  induction n generalizing v with
  | zero => simp [leBytes, leNat, Nat.mod_one]
  | succ n ih =>
    simp only [leBytes, leNat, ih, BitVec.toNat_ofNat]
    rw [show (256 : Nat) ^ (n + 1) = 256 * 256 ^ n by rw [pow_succ, Nat.mul_comm], Nat.mod_mul]

@[simp] theorem leNat_zeros (n : Nat) : leNat (zeros n) = 0 := by
  induction n with
  | zero => rfl
  | succ n ih =>
    rw [zeros, List.replicate_succ, leNat, ← zeros, ih]
    rfl

/-- The field that a byte string begins with. -/
theorem leField_leBytes_append (n v : Nat) (rest : List Byte) : leField (leBytes n v ++ rest) 0 n = v % 256 ^ n := by
  simp [leField]

theorem leField_zeros_append (n : Nat) (rest : List Byte) : leField (zeros n ++ rest) 0 n = 0 := by simp [leField]

/-- A field past the first bytes of a byte string. -/
theorem leField_append_right {bytes rest : List Byte} {k n : Nat} (h : bytes.length ≤ k) :
    leField (bytes ++ rest) k n = leField rest (k - bytes.length) n := by
  unfold leField
  rw [List.drop_append, List.drop_eq_nil_of_le h, List.nil_append]

/-! ### Encodings -/

theorem bitAt_eq (b : Bool) (n : Nat) : bitAt b n = 2 ^ n * flagField b := by cases b <;> simp [bitAt, flagField]

theorem Capacity.code_eq (c : Capacity) : c.code = [Capacity.gib4, .gib8].idxOf c := by cases c <;> rfl

theorem ChannelState.code_eq (c : ChannelState) :
    c.code = [ChannelState.init, .run, .quiet, .waking].idxOf c := by cases c <;> rfl

theorem LinkState.code_eq (c : LinkState) : c.code = [LinkState.down, .training, .up].idxOf c := by cases c <;> rfl

theorem RingState.code_eq (c : RingState) :
    c.code = [RingState.off, .clear, .congested, .incast, .stalled].idxOf c := by cases c <;> rfl

theorem AlertMode.code_eq (c : AlertMode) :
    c.code = [AlertMode.level, .inverted, .pulseHigh, .pulseLow].idxOf c := by cases c <;> rfl

theorem PulseWidth.code_eq (c : PulseWidth) : c.code = [PulseWidth.us1, .us10, .us100, .ms1].idxOf c := by cases c <;> rfl

theorem Urgency.rank_eq (u : Urgency) : u.rank = [Urgency.none, .may, .need, .must].idxOf u := by cases u <;> rfl

theorem Direction.isDown_eq (d : Direction) : flagField d.isDown = [Direction.up, .down].idxOf d := by cases d <;> rfl

theorem Status.code_eq (c : Status) : c.code = [Status.ok, .range, .tagReused].idxOf c := by cases c <;> rfl

end Sys2Proof.Machine
end

