-- ==== Sys2Proof/Laws/Timers.lean ====
section
/-! SUPPORT. What the epoch expiry and the completion of a soft reset do to each part of the state, said once. -/

namespace Sys2Proof.Machine

/-- The events of an expiry touch the alert lines alone (R73, R174). -/
theorem State.raiseExpiryEvents_eq (before : Vector Ring 64) (s : State) :
    s.raiseExpiryEvents before = { s with alerts := (s.raiseExpiryEvents before).alerts } := by
  unfold State.raiseExpiryEvents
  generalize List.finRange 64 = ks
  suffices h : ∀ (l : List (Fin 64)) (t : State), (t = { s with alerts := t.alerts }) →
      ∀ u, u = l.foldl (fun (t : State) (k : Fin 64) =>
        match expiryEvent before[k].state (s.ring k).state with
        | some e => t.raiseOn (s.ring k).settings.alertGroup e
        | none => t) t → u = { s with alerts := u.alerts } from h ks s rfl _ rfl
  intro l
  induction l with
  | nil => rintro t h u rfl; exact h
  | cons k l ih =>
    rintro t h u rfl
    refine ih _ ?_ _ rfl
    dsimp only
    cases expiryEvent before[k].state (s.ring k).state with
    | none => exact h
    | some e => dsimp only; rw [h]; rfl

/-- Everything of an expiry but the alert lines (R53, R69, R46, R115). -/
theorem State.expireEpoch_eq (s : State) :
    s.expireEpoch = { s with
      sje := { epoch := s.sje.epoch + 1, timer := some (clampEpochLength s.swu.stagedEl)
               el := clampEpochLength s.swu.stagedEl, sl := clampStallLimit s.swu.stagedSl }
      fanInWindow := clampWindow s.swu.stagedW
      rings := s.rings.map
        (Ring.expire (s.sje.epoch + 1) (clampWindow s.swu.stagedW) (clampStallLimit s.swu.stagedSl))
      hst := s.hst.expire (s.sje.epoch + 1)
      alerts := s.expireEpoch.alerts } := by
  unfold State.expireEpoch
  exact State.raiseExpiryEvents_eq _ _

/-- Each ring after an expiry. -/
theorem State.expireEpoch_ring (s : State) (k : Fin 64) :
    s.expireEpoch.ring k =
      (s.ring k).expire (s.sje.epoch + 1) (clampWindow s.swu.stagedW) (clampStallLimit s.swu.stagedSl) := by
  rw [State.expireEpoch_eq]
  simp [State.ring]

/-- A ring's state changes at an expiry into one that an active ring can have. -/
theorem Ring.nextState_ne_off (r : Ring) (set : Settings) (sl f t : Nat) : r.nextState set sl f t ≠ .off := by
  unfold Ring.nextState
  split
  · exact nofun
  · split
    · exact nofun
    · split <;> exact nofun

/-- The event of a change of state (R73). -/
theorem expiryEvent_eq_some {before after : RingState} {e : Event} : expiryEvent before after = some e ↔
    before ≠ after ∧ (after = .incast ∧ e = .incastOn ∨ after = .stalled ∧ e = .stallOn) := by
  cases before <;> cases after <;> cases e <;> decide

/-- Every ring after the completion of a soft reset (R167). -/
theorem State.completeSoftReset_ring (s : State) (k : Fin 64) : s.completeSoftReset.ring k = Ring.reset := by
  simp [State.ring, State.completeSoftReset]

end Sys2Proof.Machine
end

