-- ==== Sys2Proof/Tests/Slice0.lean ====
section
/-! SUPPORT. Tests: the check on ill-formed commands, steps of the manual's worked examples, and for each statement with
hypotheses a concrete state and operands that meet them. Each test names its source in the manual. -/

namespace Sys2Proof.Tests

open Sys2Proof Sys2Proof.Machine

set_option Elab.async false

/-! ### States for the tests -/

/-- The part in RUN with the link UP and nothing under way. -/
def up : State :=
  { State.reset with
    rstnLow := false
    clp := { LinkPort.reset with lanes := 0xFF, state := .up }
    dcc := { Channel.reset with state := .run, refreshTimer := some 39 }
    sje := { Estimator.reset with timer := some 20 } }

/-- An active ring in its state after an enable. -/
def ringAt (base lead length : Nat) (dir : Direction) : Ring :=
  { Ring.reset with state := .clear, active := { base := base, lead := lead, length := length, direction := dir } }

/-- Ring 6 of the worked sequence of 02_ring_tracking.md: B = 1000, LC = 2, N = 16, UP. -/
def ring6 : Ring := ringAt 1000 2 16 .up

/-- The part with ring 6 as given. -/
def with6 (r : Ring) : State := up.setRing 6 r

/-- The state with one request waiting. -/
def asked (s : State) (r : Request) : State := { s with rfe.rq := [r] }

/-- A cell with this prefix and these bytes from cell byte 14 on, the rest zero. -/
def cellOf (kind copies : Byte) (bytes : List Byte) : List Byte :=
  (kind :: copies :: (zeros 12 ++ bytes ++ zeros 256)).take 256

/-- What a step answers, read through one field. -/
def after {α : Type} (o : Host.Outcome State Fault Refusal) (f : State → α) : Option α :=
  match o with
  | .next t => some (f t)
  | .fault _ => none
  | .refused _ => none

/-! ### Ill-formed commands -/

theorem test_wf_laneLock_refused : (Instr.laneLock 0).wellFormed = false := by decide

theorem test_wf_laneLock : (Instr.laneLock 1).wellFormed = true := by decide

theorem test_wf_frame_refused : (Instr.requestFrameArrival (zeros 8)).wellFormed = false := by decide

theorem test_wf_frame : (Instr.requestFrameArrival (zeros 9)).wellFormed = true := by decide

/-! ### 01_cells_and_frames.md, worked examples -/

/-- The tagged IPv4 frame: signature 0802h, ECT(0), header offset 26. -/
def taggedIpv4 : List Byte :=
  cellOf 3 1 ([0, 0, 0, 0, 0, 0, 0x81, 0, 0, 0, 0x08, 0, 0x45, 0x02] ++ zeros 10 ++ [0x0A, 0x01, 0x02, 0x03])

theorem test_parse_tagged_ipv4 : parse taggedIpv4 =
    { kind := .ipv4, tags := 1, offset := some 26, signature := 0x0802, ecn := .ect0, exempt := false, copies := 1 } := by
  decide

/-- The untagged IPv6 frame: signature C944h, ECT(1), header offset 22. -/
def untaggedIpv6 : List Byte :=
  cellOf 0 2 ([0, 0, 0, 0, 0, 0, 0x86, 0xDD, 0x60, 0x10] ++ zeros 6 ++ [0xFD, 0x12, 0x34, 0x00] ++ zeros 10 ++ [0, 0x56])

theorem test_parse_ipv6 : parse untaggedIpv6 =
    { kind := .ipv6, tags := 0, offset := some 22, signature := 0xC944, ecn := .ect1, exempt := false, copies := 2 } := by
  decide

/-- Cells a, b and c of "Frames that fall to other", source MAC 02h 1Ah 00h 33h 40h 07h. -/
def otherCell (rest : List Byte) : List Byte := cellOf 3 1 ([0x02, 0x1A, 0x00, 0x33, 0x40, 0x07] ++ rest)

theorem test_parse_other :
    [otherCell [0x88, 0xA8, 0, 0, 0x88, 0xA8], otherCell [0x08, 0, 0x44], otherCell [0x08, 0, 0x65]].map
      (fun c => ((parse c).kind, (parse c).signature, (parse c).offset)) =
    List.replicate 3 (FrameKind.other, (0x422E : Signature), none) := by
  decide

/-! ### 02_ring_tracking.md -/

/-- A cell of this kind and copies with nothing behind its prefix. -/
def plainCell (kind copies : Byte) : List Byte := cellOf kind copies []

/-- A packet record of the worked sequence. -/
def recordAt (pos total left : Nat) : PacketRecord :=
  { pos := pos, kind := .other, offset := none, ecn := .notEct, exempt := false, total := total, left := left,
    decision := .none, arrival := 0 }

/-- Ring 6 with tracking state (f, d, Q, c) and records. -/
def ring6At (f d q c : Nat) (records : List PacketRecord) : Ring :=
  { ring6 with fillPos := f, drainPos := d, occ := q, reads := c, records := records }

/-- The part with ring 6 as given and a CELL_WRITE of `data` at position `p` waiting. -/
def writes6 (r : Ring) (p : Nat) (data : List Byte) : State := asked (with6 r) (.cellWrite (1002 + p) data)

/-- The part with ring 6 as given and a CELL_READ of position `p` waiting, with tag 7. -/
def reads6 (r : Ring) (p : Nat) : State := asked (with6 r) (.cellRead (1002 + p) 7)

/-- What the worked sequence shows of ring 6: (f, d, Q, c) and its list as (header position, copies left). -/
def shown (s : State) : (Nat × Nat × Nat × Nat) × List (Nat × Nat) :=
  ((s.ring 6).track, (s.ring 6).records.map (fun x => (x.pos, x.left)))

/-- The mapping example: ring 12, B = 40000, LC = 3, N = 8, DOWN. -/
theorem test_mapping :
    [40000, 40002, 40003, 40004, 40007, 40010, 40011].map (up.setRing 12 (ringAt 40000 3 8 .down)).ringClass =
      [.lead 12, .lead 12, .position 12 7, .position 12 6, .position 12 3, .position 12 0, .other] := by
  decide +kernel

/-- Step 1: a first write, adopted. -/
theorem test_cellWrite_adopts :
    after (exec .cellWrite (writes6 ring6 5 (plainCell 3 1))) shown = some ((6, 5, 1, 0), [(5, 1)]) := by
  decide +kernel

/-- Step 7: a write out of place, a resync that loses record e. -/
theorem test_cellWrite_resyncs :
    after (exec .cellWrite (writes6 (ring6At 11 10 1 5 [recordAt 10 1 1]) 14 (plainCell 0 1)))
      (fun t => (shown t, (t.ring 6).counters.lostRecords)) = some (((15, 10, 5, 5), [(14, 1)]), 1) := by
  decide +kernel

/-- Step 5: a skip-ahead, with b skipped unread and m read once. -/
theorem test_cellRead_skips_ahead :
    after (exec .cellRead (reads6 (ring6At 11 6 5 1 [recordAt 6 1 1, recordAt 9 2 2, recordAt 10 1 1]) 9))
      (fun t => (shown t, (t.ring 6).counters.readCases, (t.ring 6).counters.skippedUnread)) =
      some (((11, 10, 1, 5), [(9, 1), (10, 1)]), (4, 3, 0), 1) := by
  decide +kernel

/-- Step 6: the second multicast copy, a stray that reuses the stored decision. -/
theorem test_cellRead_strays :
    after (exec .cellRead (reads6 (ring6At 11 10 1 5 [{ recordAt 9 2 1 with decision := .mark }, recordAt 10 1 1]) 9))
      (fun t => (shown t, (t.ring 6).counters.strayReads, t.rfe.responses.map (fun r => r.decision))) =
      some (((11, 10, 1, 5), [(10, 1)]), 1, [.mark]) := by
  decide +kernel

/-! ### 03_fan_in_tracking.md, worked example -/

/-- A Sender List entry. -/
def senderAt (x : Nat × Nat × Nat) : Sender :=
  { signature := BitVec.ofNat 16 x.1, lastSeen := BitVec.ofNat 16 x.2.1, packets := x.2.2 }

/-- (S17, 300, 1), (S16..S2, 300, 1). -/
def sixteen : List Sender :=
  [0x1011, 0x1010, 0x100F, 0x100E, 0x100D, 0x100C, 0x100B, 0x100A, 0x1009, 0x1008, 0x1007, 0x1006, 0x1005, 0x1004,
    0x1003, 0x1002].map (fun n => senderAt (n, 300, 1))

/-- S18's packet evicts S2. -/
theorem test_sender_evicted : evicts sixteen 0x1012 = true ∧
    noteSender sixteen 0x1012 300 = senderAt (0x1012, 300, 1) :: sixteen.dropLast := by
  decide +kernel

/-- A second packet of S5 moves it to the front. -/
theorem test_sender_repeats : evicts sixteen 0x1005 = false ∧
    noteSender sixteen 0x1005 300 =
      senderAt (0x1005, 300, 2) :: (sixteen.take 12 ++ sixteen.drop 13) := by
  decide +kernel

/-- The expiry into epoch 309 removes what was last seen in epoch 300. -/
theorem test_senders_age :
    ageSenders ([(0x1005, 303, 3), (0x1012, 303, 2), (0x1001, 300, 1)].map senderAt) 309 8 =
      [(0x1005, 303, 3), (0x1012, 303, 2)].map senderAt := by
  decide +kernel

/-! ### 04_sojourn_estimation.md -/

/-- The seven examples of the drain update. -/
theorem test_drain_update :
    [(160, 14, 3), (168, 6, 3), (17, 1, 2), (100, 7, 4), (160, 0, 3), (5, 0, 3), (0, 4095, 0)].map
      (fun x => drainUpdate x.1 x.2.1 x.2.2) = [168, 159, 16, 100, 140, 4, 65520] := by
  decide +kernel

/-- The extremes of the sojourn, and the sojourns of the worked example. -/
theorem test_sojourn :
    [(65536, 16), (1, 65520), (1, 0), (0, 0), (75, 160), (83, 168), (91, 168)].map (fun x => sojourn x.1 x.2) =
      [65535, 0, 65535, 0, 120, 126, 138] := by
  decide +kernel

/-- The examples of the share, with TL = 64, TH = 320 and PS = 64. -/
theorem test_share :
    [(40, 0), (120, 0), (319, 0), (320, 0), (120, 1), (120, 2), (0, 3), (65535, 3)].map
      (fun x => share x.1 64 (effective 64 x.2) (effective 320 x.2)) = [0, 14, 63, 256, 44, 256, 0, 256] := by
  decide +kernel

/-- Ring 9 of the worked example before expiry 3, but for its senders. -/
def ring9 : Ring :=
  { ringAt 5000 0 256 .up with
    state := .incast, fillPos := 91, occ := 91, drain := 168, ramp := 1, lastT := 126,
    stagedSettings := { StagedSettings.default with alertGroup := 1 } }

/-- Expiry 3: a stall holds D and L, and raises STALL_ON on the alert group. -/
theorem test_epochExpiry_stalls :
    after (exec .epochExpiry { up.setRing 9 ring9 with swu.stagedSl := 1 })
      (fun t => ((t.ring 9).state, [(t.ring 9).stall, (t.ring 9).drain, (t.ring 9).lastT, (t.ring 9).ramp],
        t.alerts.toList.map (fun l => l.flags.toNat))) = some (.stalled, [1, 168, 138, 1], [0, 2, 0, 0]) := by
  decide +kernel

/-- The same expiry under the default stall limit: D = 147, T = 158. Without its senders the ring is CONGESTED. -/
theorem test_epochExpiry_drains :
    after (exec .epochExpiry (up.setRing 9 ring9))
      (fun t => ((t.ring 9).state, [(t.ring 9).stall, (t.ring 9).drain, (t.ring 9).lastT], t.sje.epoch)) =
      some (.congested, [1, 147, 158], 1) := by
  decide +kernel

/-! ### 05_dequeue_marking.md, worked examples -/

/-- The decisions of the sequence under CARRY, with P = 44. -/
theorem test_decisions :
    [(MarkKind.markable, 250), (.notMarkable, 38), (.exempt, 82), (.markable, 82), (.alreadyCe, 126), (.markable, 170),
      (.notMarkable, 214), (.alreadyCe, 255)].map
      (fun x => ((decideMark x.1 .carry x.2 44).decision, (decideMark x.1 .carry x.2 44).credit)) =
    [(.mark, 38), (.pass, 82), (.pass, 82), (.pass, 126), (.pass, 170), (.pass, 214), (.unmarkable, 255),
      (.ceAlready, 43)] := by
  decide +kernel

/-- Read 8 under SPEND. -/
theorem test_decision_spends : decideMark .notMarkable .spend 214 44 = { decision := .unmarkable, credit := 2 } := by
  decide

/-- Packet m: 4502h and B1E6h become 4503h and B1E5h. -/
theorem test_rewrite_ipv4 :
    let after := rewriteIpv4 22 (cellOf 3 3 (zeros 8 ++ [0x45, 0x02] ++ zeros 8 ++ [0xB1, 0xE6]))
    [22, 23, 32, 33].map (byteAt after) = [0x45, 0x03, 0xB1, 0xE5] := by
  decide +kernel

/-- The ECT(1) packet: 4501h and 0001h become 4503h and FFFEh. -/
theorem test_rewrite_ipv4_low :
    let after := rewriteIpv4 26 (cellOf 3 1 (zeros 12 ++ [0x45, 0x01] ++ zeros 8 ++ [0x00, 0x01]))
    [26, 27, 36, 37].map (byteAt after) = [0x45, 0x03, 0xFF, 0xFE] := by
  decide +kernel

/-- The IPv6 packet: 10h becomes 30h. -/
theorem test_rewrite_ipv6 : byteAt (rewriteIpv6 22 (cellOf 3 1 (zeros 8 ++ [0x60, 0x10]))) 23 = 0x30 := by
  decide +kernel

/-! ### 06_the_hold_store.md, worked example -/

/-- A slot of the worked example. -/
def slotOf (num cell : Nat) (state : SlotState) (remaining : Nat) (ring : Fin 64) (fill : Byte) : Slot :=
  { num := num, state := state, cell := cell, data := List.replicate 256 fill, remaining := remaining, ring := ring,
    admitted := 700 }

/-- The part in epoch 700 with these slots and hold enable on. -/
def holding (slots : List Slot) : State :=
  { up with hst := { HoldStore.reset with slots := slots, holdEnable := true }, sje.epoch := 700 }

/-- A retirement of slot 0, cell 70020, chosen at MAY. -/
def retiringY : Retirement := { slot := 0, cell := 70020, data := List.replicate 256 1, urgency := .may }

/-- Step 5: a RETIRING_WRITTEN slot returns to HELD at the young end. -/
theorem test_retirementCompletion_returns :
    after (exec .retirementCompletion
      { holding [slotOf 0 70020 .retiringWritten 1 4 2, slotOf 1 50010 .held 1 3 3] with
        dcc.inHand := some retiringY, dcc.inFlight := some { op := .retirement retiringY, duration := 20 } })
      (fun t => (t.hst.slots.map (fun x => x.num), t.dram.byte (256 * 70020), t.counters.retired)) =
      some ([1, 0], 1, 0) := by
  decide +kernel

/-- A response of entry 5 with tag 9 that holds a claim on slot 1. -/
def claimed : Response :=
  { id := 5, state := .sending, tag := 9, extent := .cell, status := .ok, data := List.replicate 256 3,
    decision := .none, header := none, claim := some 1 }

/-- A state in which that response is being sent. -/
def sending (s : State) : State :=
  { s with clp.tx := .readData 5 [], rfe.responses := [claimed], rfe.tags := [9] }

/-- Step 6: the last read of X elides slot 1. -/
theorem test_responseSent_elides :
    after (exec .responseSent (sending (holding [slotOf 1 50010 .held 1 3 3, slotOf 0 70020 .held 1 4 2])))
      (fun t => (t.hst.slots.map (fun x => x.num), t.counters.elided, t.rfe.tags)) = some ([0], 1, []) := by
  decide +kernel

/-- "Urgency at other fills", the rows of fill 1. -/
theorem test_urgency :
    ((holding [slotOf 0 70020 .held 1 4 2]).hst.urgency 700, (holding [slotOf 0 70020 .held 1 4 2]).hst.urgency 751,
      { (holding [slotOf 0 70020 .held 1 4 2]).hst with flush := true }.urgency 700) = (.may, .need, .must) := by
  decide +kernel

/-! ### 07_the_dram_channel.md, worked example -/

/-- Banks and rows of the four cells. -/
theorem test_bank_map : [1300, 9000, 5000, 20500].map (fun c => ((bankOf c).val, rowOf c)) =
    [(2, 10), (5, 70), (1, 39), (2, 160)] := by
  decide

/-- The reads R1, R2 and R3, and the write W1. -/
def readR1 : ReadEntry := { cell := 1300, extent := .cell, entry := 1, boost := false, seq := 0 }
def readR2 : ReadEntry := { cell := 5000, extent := .cell, entry := 2, boost := true, seq := 2 }
def readR3 : ReadEntry := { cell := 9000, extent := .cell, entry := 3, boost := false, seq := 3 }
def writeW1 : WriteEntry := { cell := 9000, payload := .full (List.replicate 256 5), seq := 1 }

/-- The channel of the worked example with these queues and this backlog. The store holds one slot, of cell 20500, and
its low mark is 1, so that it is at NEED. -/
def choosing (reads : List ReadEntry) (writes : List WriteEntry) (backlog : Nat) : State :=
  { up with
    dcc.readQ := reads, dcc.writeQ := writes, dcc.backlog := backlog, dcc.nextSeq := 4
    dcc.banks := ((Channel.closedBanks.set 1 (some 39)).set 2 (some 10)).set 5 (some 3)
    hst := { HoldStore.reset with slots := [slotOf 0 20500 .held 1 4 2], lowMark := 1 }
    sje.epoch := 700 }

/-- Choices 1 to 6. -/
theorem test_choices :
    [choosing [readR1, readR2, readR3] [writeW1] 4, choosing [readR1, readR3] [writeW1] 4,
      choosing [readR3] [writeW1] 4, choosing [readR3] [writeW1] 3, choosing [readR3] [] 3, choosing [] [] 3].map
      State.choose =
    [.read readR2, .read readR1, .refresh, .write writeW1, .read readR3, .retirement .need] := by
  decide +kernel

/-- Choice 1 is a row hit. -/
theorem test_choice_hits :
    (choosing [readR1, readR2, readR3] [writeW1] 4).arbitrate.dcc.inFlight =
      some { op := .read readR2 false, duration := 6 } := by
  decide +kernel

/-! ### 08_the_cell_link_and_request_flow.md -/

/-- The check word: the generator 1EDC6F41h, started at FFFFFFFFh, reflected and complemented, gives E3069283h over the
characters "123456789" (the check value published with this cyclic check). -/
theorem test_check_word : crcWord [0x31, 0x32, 0x33, 0x34, 0x35, 0x36, 0x37, 0x38, 0x39] = 0xE3069283 := by
  decide +kernel

/-- A read of cell 5 with tag 9. -/
def goodFrame : List Byte := requestFrame 0 0 (.cellRead 5 9)

/-- The same frame with one bit of its tag turned. -/
def badFrame : List Byte := goodFrame.set 4 8

theorem test_requestFrameArrival_queues :
    after (exec (.requestFrameArrival goodFrame) up) (fun t => t.rfe.rq) = some [.cellRead 5 9] := by
  decide +kernel

theorem test_requestFrameArrival_fails :
    after (exec (.requestFrameArrival badFrame) up)
      (fun t => (t.rfe.rq, t.counters.integrityFailures, t.clp.tx)) = some ([], 1, .credit (creditFrame 1)) := by
  decide +kernel

/-- A link drop discards the two waiting requests, and the read in flight loses its entry. -/
theorem test_laneLockLoss_drops :
    after (exec (.laneLockLoss 3)
      { up with
        rfe.rq := [.cellWrite 60012 (plainCell 0 1), .cellRead 60013 14]
        dcc.inFlight := some { op := .read readR1 false, duration := 6 } })
      (fun t => (t.clp.state, t.clp.lanes, t.counters.discarded, t.dcc.inFlight)) =
      some (.down, 0xF7, 2, some { op := .read readR1 true, duration := 6 }) := by
  decide +kernel

/-! ### 09_the_service_windows.md, worked example -/

/-- Ring 2 active at 200000 with LC = 4 and N = 1024, and ring 3 OFF with this staged geometry and alert group 2. -/
def rings2and3 (base : Nat) : State :=
  (up.setRing 2 (ringAt 200000 4 1024 .up)).setRing 3
    { Ring.reset with
      staged := { base := base, lead := 0, length := 512, direction := .up }
      stagedSettings := { StagedSettings.default with alertGroup := 2 } }

/-- A write of a little-endian number to a word of control cell `n`. -/
def writesWord (s : State) (n w value : Nat) : State :=
  asked s (.wordWrite (s.capacity.cells - 32 + n) w (leBytes 8 value))

/-- Step 4: the enable is refused, and RING_REFUSED flags alert line 2. -/
theorem test_ringEnable_refused :
    after (exec .ringEnable (writesWord (rings2and3 201000) 1 31 1))
      (fun t => ((t.ring 3).state, t.alerts.toList.map (fun l => l.flags.toNat))) = some (.off, [0, 0, 4, 0]) := by
  decide +kernel

/-- Step 6: the corrected enable acts. -/
theorem test_ringEnable_acts :
    after (exec .ringEnable (writesWord (rings2and3 201028) 1 31 1))
      (fun t => ((t.ring 3).state, (t.ring 3).active.base, (t.ring 3).settings.alertGroup)) =
      some (.clear, 201028, 2) := by
  decide +kernel

/-- Step 7: TL = 32 and TH = 160 are staged, and the active settings stay. -/
theorem test_settingWrite_stages :
    after (exec .settingWrite (writesWord (rings2and3 201028) 1 26 (32 + 160 * 65536)))
      (fun t => ((t.ring 3).stagedSettings.tl, (t.ring 3).stagedSettings.th, (t.ring 3).settings.tl)) =
      some (32, 160, 64) := by
  decide +kernel

/-! ### 10_alert_lines.md, worked example -/

/-- Line 1 of the worked example: PULSE_LOW, 100 µs, INCAST_ON and STORE_MUST enabled. -/
def line1 : AlertLine := { AlertLine.reset with mode := .pulseLow, width := .us100, mask := 0b1001 }

/-- 0 µs: INCAST_ON starts a pulse. 40 µs: STORE_MUST lengthens nothing. 100 µs: the line rests high. -/
theorem test_pulse :
    ((line1.raise .incastOn).driven, ((line1.raise .incastOn).raise .storeMust).driven,
      ((line1.raise .incastOn).raise .storeMust).endPulse.driven) = (false, false, true) := by
  decide

/-- 150 and 300 µs: the flag cleared, a second INCAST_ON pulses the line; not cleared, it does not. -/
theorem test_pulse_again :
    let ended := ((line1.raise .incastOn).raise .storeMust).endPulse
    (((ended.clear 1).raise .incastOn).driven, (ended.raise .incastOn).driven) = (false, true) := by
  decide

/-- A report read of cell 34, word 8, in epoch 309: the first two slots of ring 5's list (03_fan_in_tracking.md). -/
theorem test_wordRead_report :
    after (exec .wordRead { asked (up.setRing 5 { ringAt 5000 0 256 .up with
        senders := [(0x1005, 303, 3), (0x1012, 303, 2)].map senderAt }) (.wordRead (16777216 - 128 + 34) 8 1) with
          sje.epoch := 309 })
      (fun t => t.rfe.responses.map (fun r => r.data)) =
    some [[0x05, 0x10, 6, 3, 0x12, 0x10, 6, 2]] := by
  decide +kernel

/-! ### Witnesses

For each statement with hypotheses, a state and operands that meet them, at the edges of each clause. -/

/-- The part in INIT, RSTN high, with these lanes locked. -/
def initial (lanes : BitVec 8) : State := { State.reset with rstnLow := false, clp.lanes := lanes }

/-- The part in TRAINING. -/
def training : State := { up with clp := { LinkPort.reset with lanes := 0xFF, state := .training, attempt := 1 } }

/-- The part in DOWN, lane 7 not locked. -/
def down : State := { up with clp := { LinkPort.reset with lanes := 0x7F } }

theorem witness_PowerOnResetAndItsEnd : State.reset.rstnLow = true := by decide

theorem witness_InitAndWakingEndInRun :
    (∀ lanes ∈ [0x7F#8, 0xFF#8],
      (initial lanes).rstnLow = false ∧ (initial lanes).dcc.state = .init ∧ (initial lanes).InitOk) ∧
    ({ up with dcc.state := .waking } : State).dcc.state = .waking := by
  decide +kernel

/-- The three parts of the condition in `LaneLockStartsTraining`, met and missed. -/
theorem witness_LaneLockStartsTraining :
    (down.clp.state = .down ∧ down.dcc.state ≠ .init ∧ down.clp.lanes ||| 0x80 = 0xFF) ∧
      down.clp.lanes ||| 0x01 ≠ 0xFF ∧ (initial 0x7F).dcc.state = .init ∧ up.clp.state ≠ .down := by
  decide +kernel

theorem witness_TrainingEndsInUpOrANewAttempt : training.clp.state = .training ∧ training.LinkOk := by decide +kernel

theorem witness_LaneLossAndLinkResetLeaveTheLink :
    (up.clp.state = .up ∧ training.clp.state = .training ∧ down.clp.state = .down) ∧
      ∀ s ∈ [up, training, down], ∀ lane ∈ [(0 : Fin 8), 7],
        ∃ lanes, Instr.laneLockLoss lane = .laneLockLoss lane ∧ lanes = s.clp.lanes &&& ~~~(1#8 <<< lane.val) := by
  refine ⟨by decide +kernel, fun s _ lane _ => ⟨_, rfl, rfl⟩⟩

/-- The part in UP with `n` requests waiting. -/
def crowded (n : Nat) : State := { up with rfe.rq := List.replicate n (.cellRead 5 9) }

theorem witness_RequestFrameIsQueuedOrDiscarded :
    down.clp.state ≠ .up ∧ up.clp.state = .up ∧ framePasses badFrame = false ∧ framePasses [] = false ∧
      framePasses goodFrame = true ∧ 64 ≤ (crowded 64).rfe.rq.length ∧ (crowded 63).rfe.rq.length < 64 ∧
      (crowded 64).clp.state = .up ∧ (crowded 63).clp.state = .up := by
  decide +kernel

theorem witness_RequestFramesDecode : (15 < 16 ∧ 7 < 8) ∧
    (Request.cellWrite (2 ^ 26 - 1) (zeros 256)).InRange ∧ (Request.wordWrite (2 ^ 26 - 1) 31 (zeros 8)).InRange ∧
      (Request.cellRead (2 ^ 26 - 1) 255).InRange ∧ (Request.wordRead 0 0 0).InRange := by
  unfold Request.InRange; decide +kernel

/-- Ring 3 enabled just past ring 2, whose last position, and whose own lead cells and positions, keep their classes. -/
def adjacent : State := (rings2and3 201028).setRing 3 (ringAt 201028 0 512 .down)

theorem witness_RingClassFollowsTheGeometry : adjacent.RegionsOk ∧ 16777087 < adjacent.capacity.cells - 128 ∧
    [200000, 200003, 200004, 201027, 201028, 201539, 201540].map adjacent.ringClass =
      [.lead 2, .lead 2, .position 2 0, .position 2 1023, .position 3 511, .position 3 0, .other] := by
  decide +kernel

/-- First cells with no tag, one and two, of each kind. -/
theorem witness_FirstCellIsParsed :
    [cellOf 0 1 (zeros 6 ++ [0x08, 0x00, 0x45]), cellOf 0 1 (zeros 6 ++ [0x88, 0xA8, 0, 0, 0x86, 0xDD, 0x60]),
      cellOf 0 1 (zeros 6 ++ [0x81, 0x00, 0, 0, 0x81, 0x00, 0, 0, 0x08, 0x00, 0x4F]),
      cellOf 0 1 (zeros 6 ++ [0x08, 0x00, 0x44])].map (fun c => ((parse c).kind, (parse c).tags)) =
    [(.ipv4, 0), (.ipv6, 1), (.ipv4, 2), (.other, 0)] := by
  decide +kernel

/-- A CELL_WRITE that would be admitted, with the write queue full. -/
def admitting : State :=
  { writes6 { ring6 with drain := 160 } 5 (plainCell 3 1) with
    hst := { HoldStore.reset with holdEnable := true }, dcc.writeQ := List.replicate 32 writeW1 }

theorem admitting_wouldAdmit : admitting.WouldAdmit 6 5 (plainCell 3 1) :=
  ⟨by decide, by decide +kernel, by decide +kernel, by decide +kernel, by decide +kernel, ⟨0, by decide, by decide⟩,
    by decide⟩

theorem admitting_head : admitting.HeadWritesPosition 1007 (plainCell 3 1) [] 6 5 :=
  ⟨rfl, by decide +kernel, by decide +kernel, .inr (.inl admitting_wouldAdmit)⟩

/-- A CELL_WRITE of a held cell, with the write queue full. -/
def overwriting : State := { admitting with hst.slots := [slotOf 0 1007 .held 1 6 2] }

theorem overwriting_head : overwriting.HeadWritesPosition 1007 (plainCell 3 1) [] 6 5 :=
  ⟨rfl, by decide +kernel, by decide +kernel, .inl (by decide +kernel)⟩

/-- A first cell that finds the pool empty, and whose admission brings fill up to the high mark in use. -/
def raising : State :=
  { admitting with poolFree := 0, hst := { admitting.hst with lowMark := 1, highMark := 1 } }

theorem raising_raises : raising.HeadWritesPosition 1007 (plainCell 3 1) [] 6 5 ∧
    raising.poolFree + ((raising.ring 6).records.length - (raising.ring 6).records.length) = 0 ∧
    raising.hst.slots.length + 1 = max raising.hst.highMark raising.hst.lowMark ∧
    after (exec .cellWrite raising) (fun t => t.alerts.toList.map (fun l => l.flags.toNat)) = some [24, 24, 24, 24] :=
  ⟨⟨rfl, by decide +kernel, by decide +kernel, .inr (.inl ⟨by decide, by decide +kernel, by decide +kernel,
    by decide +kernel, by decide +kernel, ⟨0, by decide, by decide⟩, by decide⟩)⟩, by decide +kernel, by decide,
    by decide +kernel⟩

/-- Adopt, in sequence, overrun, rewrite and resync, the last two at the ends of the span; and a full write queue with a
write that is admitted and one that is held. -/
theorem witness_PositionWriteMovesTheFill :
    (admitting.HeadWritesPosition 1007 (plainCell 3 1) [] 6 5 ∧ 32 ≤ admitting.dcc.writeQ.length) ∧
    (overwriting.HeadWritesPosition 1007 (plainCell 3 1) [] 6 5 ∧ 32 ≤ overwriting.dcc.writeQ.length) ∧
    ∀ x ∈ [(ring6, 15, WriteCase.adopt), (ring6At 6 5 1 0 [], 6, .inSequence), (ring6At 5 5 16 0 [], 5, .overrun),
        (ring6At 10 5 5 0 [], 9, .rewrite), (ring6At 10 5 5 0 [], 11, .resync)],
      (writes6 x.1 x.2.1 (plainCell 3 1)).HeadWritesPosition (1002 + x.2.1) (plainCell 3 1) [] 6 x.2.1 ∧
        x.1.writeCase x.2.1 = x.2.2 := by
  refine ⟨⟨admitting_head, by decide⟩, ⟨overwriting_head, by decide⟩, ?_⟩
  unfold State.HeadWritesPosition; decide +kernel

/-- Senders with signatures 0 to n − 1. -/
def sendersUpTo (n : Nat) : List Sender := (List.range n).map (fun i => senderAt (i, 0, 65535))

/-- The hypotheses of `AcceptedWriteUpdatesRecordsAndSenders`. -/
def acceptedHolds (s : State) (p : Nat) (data : List Byte) : Prop :=
  s.HeadWritesPosition (1002 + p) data [] 6 p ∧ (s.ring 6).SendersOk ∧
    ((s.ring 6).occ = 0 ∨ p = (s.ring 6).fillPos ∨
      (s.ring 6).occ ≤ (p + (s.ring 6).active.length - (s.ring 6).drainPos) % (s.ring 6).active.length)

/-- A MIDDLE cell; a first cell with one record to spare in the quota; with none to spare; with an empty pool; with 15
and with 16 other senders; with its own sender at the back. The cells' own signature is 0, or 422Eh. -/
theorem witness_AcceptedWriteUpdatesRecordsAndSenders :
    (∀ x ∈ [(writes6 ring6 5 (plainCell 1 1), 5, plainCell 1 1),
        (writes6 { ring6 with settings.quota := 1 } 5 (plainCell 0 1), 5, plainCell 0 1),
        (writes6 { ring6 with settings.quota := 0 } 5 (plainCell 0 1), 5, plainCell 0 1),
        ({ writes6 ring6 5 (plainCell 3 0) with poolFree := 0 }, 5, plainCell 3 0),
        (writes6 { ring6 with senders := sendersUpTo 15 } 5 (otherCell []), 5, otherCell []),
        (writes6 { ring6 with senders := sendersUpTo 16 } 5 (otherCell []), 5, otherCell []),
        (writes6 { ring6 with senders := (sendersUpTo 16).reverse } 5 (plainCell 0 1), 5, plainCell 0 1),
        (writes6 (ring6At 11 10 1 5 [recordAt 10 1 1]) 14 (plainCell 0 1), 14, plainCell 0 1)],
      acceptedHolds x.1 x.2.1 x.2.2) ∧
    (parse (otherCell [])).signature = 0x422E ∧ (parse (plainCell 0 1)).signature = 0 := by
  unfold acceptedHolds State.HeadWritesPosition; decide +kernel

/-- The part with this store, one write-queue entry free, and a CELL_WRITE of a cell that is not held waiting. -/
def storing (r : Ring) (data : List Byte) (h : HoldStore) : State :=
  { writes6 r 5 data with hst := h, dcc.writeQ := List.replicate 31 writeW1 }

/-- One write that passes the admission test, with the high mark at fill, and at fill + 1; and writes that fail it, one
for each condition but the free slot. -/
theorem witness_PositionWriteIsAdmittedOrBypassed :
    (admitting.HeadWritesPosition 1007 (plainCell 3 1) [] 6 5 ∧ admitting.WouldAdmit 6 5 (plainCell 3 1)) ∧
    (∀ x ∈ admitting.hst.slots, x.cell ≠ 1007) ∧
    (∀ x ∈ [(1, true), (2, false)],
      let s := { admitting with hst := { admitting.hst with lowMark := x.1, highMark := 0 } }
      decide (s.hst.slots.length + 1 = max s.hst.highMark s.hst.lowMark) = x.2 ∧
        after (exec .cellWrite s) (fun t => (t.hst.slots.length, t.alerts[0].flags.toNat)) =
          some (1, if x.2 then 8 else 0)) ∧
    ∀ x ∈ [({ ring6 with drain := 160 }, plainCell 3 0, { admitting.hst with flush := false }),
        (ring6, plainCell 3 1, admitting.hst),
        ({ ring6 with drain := 160, state := .stalled }, plainCell 3 1, admitting.hst),
        ({ ring6 with drain := 160, settings.holdEnable := false }, plainCell 3 1, admitting.hst),
        ({ ring6 with drain := 160 }, plainCell 3 1, { admitting.hst with holdEnable := false }),
        ({ ring6 with drain := 160 }, plainCell 3 1, { admitting.hst with flush := true })],
      (storing x.1 x.2.1 x.2.2).rfe.rq = .cellWrite 1007 x.2.1 :: [] ∧
        (storing x.1 x.2.1 x.2.2).ringClass 1007 = .position 6 5 ∧ (storing x.1 x.2.1 x.2.2).dcc.writeQ.length < 32 ∧
        after (exec .cellWrite (storing x.1 x.2.1 x.2.2)) (fun t => t.hst.slots.length) = some 0 := by
  refine ⟨⟨admitting_head, admitting_wouldAdmit⟩, by decide, ?_, ?_⟩ <;> decide +kernel

/-- The cell held, as HELD, RETIRING and RETIRING_WRITTEN. -/
theorem witness_HeldCellIsOverwritten :
    ∀ st ∈ [SlotState.held, .retiring, .retiringWritten], ∀ copies ∈ [(0 : Byte), 15],
      let s := asked (holding [slotOf 0 70020 st 1 4 2]) (.cellWrite 70020 (plainCell 3 copies))
      s.rfe.rq = .cellWrite 70020 (plainCell 3 copies) :: [] ∧ s.cellClass 70020 = .buffer ∧
        s.hst.lookup? 70020 = some (slotOf 0 70020 st 1 4 2) := by
  decide +kernel

/-- A lead cell, a word of an unheld and of a held cell, and the first and last cells of the report window. -/
theorem witness_PlainWritesAreQueuedMergedOrDiscarded :
    let a := asked (with6 ring6) (.cellWrite 1001 (zeros 256))
    let b := asked (with6 ring6) (.wordWrite 1002 31 (zeros 8))
    let c := asked (holding [slotOf 0 70020 .held 1 4 2]) (.wordWrite 70020 0 (zeros 8))
    (a.cellClass 1001 = .buffer ∧ a.ringClass 1001 = .lead 6 ∧ a.hst.lookup? 1001 = none ∧ a.dcc.writeQ.length < 32) ∧
    (b.cellClass 1002 = .buffer ∧ b.ringClass 1002 = .position 6 0 ∧ b.hst.lookup? 1002 = none ∧
      b.dcc.writeQ.length < 32) ∧
    (c.cellClass 70020 = .buffer ∧ (c.hst.lookup? 70020).isSome = true) ∧
    ∀ cell ∈ [16777088, 16777183], up.capacity.cells - 128 ≤ cell ∧ cell < up.capacity.cells - 32 ∧
      (asked up (.wordWrite cell 0 [])).rfe.rq = .wordWrite cell 0 [] :: [] := by
  decide +kernel

/-- The first cell past CAP, written and read. -/
theorem witness_OutOfRangeRequestsAreRefused :
    up.capacity.cells ≤ 16777216 ∧
    ∀ q ∈ [Request.cellWrite 16777216 [], .wordWrite 16777216 0 [], .cellRead 16777216 7, .wordRead 16777216 0 7],
      (asked up q).rfe.rq = q :: [] ∧ (asked up q).rfe.responses.length < 64 ∧ 7#8 ∉ (asked up q).rfe.tags := by
  decide +kernel

/-- A CELL_READ of a held cell, with the read queue full. -/
def hitting : State :=
  { reads6 (ring6At 10 5 5 0 []) 5 with
    hst.slots := [slotOf 0 1007 .held 1 6 2], dcc.readQ := List.replicate 32 readR1 }

/-- Advance, skip-ahead to the last cell of the span, a stray just past it, and a stray of an empty ring; and a hit with
the read queue full. -/
theorem witness_PositionReadMovesTheDrain :
    (hitting.HeadReadsPosition 1007 7 [] 6 5 ∧ 32 ≤ hitting.dcc.readQ.length) ∧
    ∀ x ∈ [(ring6At 10 5 5 4095 [], 5, ReadCase.advance), (ring6At 10 5 5 0 [], 9, .skipAhead),
        (ring6At 10 5 5 0 [], 10, .stray), (ring6, 0, .stray)],
      (reads6 x.1 x.2.1).HeadReadsPosition (1002 + x.2.1) 7 [] 6 x.2.1 ∧ x.1.readCase x.2.1 = x.2.2 := by
  unfold State.HeadReadsPosition; decide +kernel

/-- A read that finds no record; one that finds the second record, undecided, with its last copy; one that finds a
decided record. -/
theorem witness_HeaderLookupDecidesOnce :
    (∀ records ∈ [[recordAt 6 1 1], [recordAt 6 1 1, recordAt 9 1 1], [{ recordAt 9 2 1 with decision := .mark }]],
      (reads6 (ring6At 11 6 5 1 records) 9).HeadReadsPosition 1011 7 [] 6 9) ∧
    (∀ x ∈ [recordAt 6 1 1], x.pos ≠ 9 ∨ x.left = 0) ∧ (recordAt 9 1 1).pos = 9 ∧ 0 < (recordAt 9 1 1).left := by
  unfold State.HeadReadsPosition; decide +kernel

/-- A ring below TL', one past TH', and one with D = 0; credit 255 is the largest. -/
theorem witness_ShareExtremesFixTheDecision :
    (∀ kind ∈ [MarkKind.markable, .alreadyCe, .notMarkable], kind ≠ .exempt ∧ 255 ≤ 255) ∧
    ∀ x ∈ [((1, 65520), true), ((320, 256), false), ((1, 0), false)],
      let r := { ring6 with occ := x.1.1, drain := x.1.2, active.length := 1024 }
      let m := { recordAt 5 1 1 with kind := .ipv4, offset := some 22, ecn := .ect0 }
      r.EstimateOk ∧ r.settings.th ≤ 65535 ∧ m.exempt = false ∧ m.markKind = .markable ∧
        (decide (sojourn r.occ r.drain < r.settings.tl / 2 ^ r.ramp) = x.2) ∧
        (decide (r.settings.th / 2 ^ r.ramp ≤ sojourn r.occ r.drain) = !x.2) := by
  decide +kernel

theorem witness_HitsCopyTheSlot :
    ∀ q ∈ [Request.cellRead 70020 255, .wordRead 70020 31 255],
      let s := asked (holding [slotOf 0 70020 .held 1 4 2]) q
      s.rfe.rq = q :: [] ∧ s.cellClass 70020 = .buffer ∧ s.hst.lookup? 70020 = some (slotOf 0 70020 .held 1 4 2) ∧
        255#8 ∉ s.rfe.tags ∧ s.rfe.responses.length < 64 := by
  decide +kernel

/-- A position of a ring in INCAST; a lead cell; a word of the same cell; and the control window. -/
theorem witness_MissesJoinTheReadQueue :
    ((reads6 { ring6 with state := .incast } 0).HeadReadsPosition 1002 7 [] 6 0 ∧ up.hst.lookup? 1002 = none) ∧
    (∀ q ∈ [Request.cellRead 1001 7, .wordRead 1001 31 7, .cellRead 16777184 7, .wordRead 16777215 0 7],
      (asked (with6 ring6) q).rfe.rq = q :: [] ∧ 7#8 ∉ (asked (with6 ring6) q).rfe.tags) ∧
    (with6 ring6).cellClass 1001 = .buffer ∧ (with6 ring6).ringClass 1001 = .lead 6 ∧
    (with6 ring6).cellClass 16777184 = .control 0 ∧ (with6 ring6).cellClass 16777215 = .control 31 := by
  unfold State.HeadReadsPosition; decide +kernel

/-- A reused tag, on an out-of-range cell and on a report cell. -/
theorem witness_ReusedTagsAreRefused :
    ∀ q ∈ [Request.cellRead 16777216 7, .wordRead 16777088 31 7],
      let s := { asked up q with rfe.tags := [7] }
      s.rfe.rq = q :: [] ∧ s.rfe.responses.length < 64 ∧ 7#8 ∈ s.rfe.tags := by
  decide +kernel

/-- The first and last report cell of each kind, with the rings they show. -/
theorem witness_ReportReadsShowTheTake :
    (∀ n ∈ [0, 1, 32, 33, 48, 49, 95],
      let s := asked up (.cellRead (16777088 + n) 7)
      s.rfe.rq = .cellRead (16777088 + n) 7 :: [] ∧ s.cellClass (16777088 + n) = .report n ∧ 7#8 ∉ s.rfe.tags ∧
        s.rfe.responses.length < 64) ∧
    [(0 : Fin 64), 63].map (fun k => (1 + k.val / 2, 33 + k.val / 4)) = [(1, 33), (32, 48)] := by
  decide +kernel

/-- Rings 0 and 63, ring words 0 to 5, and device word 0. -/
theorem witness_SettingWritesAreStaged :
    (writesWord up 0 0 1).rfe.rq = .wordWrite (up.capacity.cells - 32) 0 (leBytes 8 1) :: [] ∧
    ∀ k ∈ [(0 : Fin 64), 63], ∀ j ∈ [0, 1, 2, 3, 4, 5],
      let s := writesWord up (1 + k.val / 4) (8 * (k.val % 4) + j) 5
      s.dcc.writeQ.length < 32 ∧ s.rfe.rq =
        .wordWrite (s.capacity.cells - 32 + (1 + k.val / 4)) (8 * (k.val % 4) + j) (leBytes 8 5) :: [] := by
  decide +kernel

/-- Device words 1 to 6; word 1 brings the high mark down to a fill of 1. -/
theorem witness_DeviceSettingsActAtTheTake :
    (∀ w ∈ [1, 2, 3, 4, 5, 6], (writesWord up 0 w 0).dcc.writeQ.length < 32 ∧
      (writesWord up 0 w 0).rfe.rq = .wordWrite (up.capacity.cells - 32) w (leBytes 8 0) :: []) ∧
    let s := holding [slotOf 0 70020 .held 1 4 2]
    s.hst.slots.length < max s.hst.highMark s.hst.lowMark ∧
      max (min 2048 (leField (leBytes 8 0) 4 2)) (max 1 (min 2048 (leField (leBytes 8 0) 2 2))) ≤ s.hst.slots.length := by
  decide +kernel

/-- A CELL_WRITE of the last control cell, a word of each kind at the head, and words that are not decoded. -/
theorem witness_ControlCellsDecodeInOrder :
    (∀ x ∈ [(0, 8), (1, 6), (16, 30), (17, 5), (18, 0), (31, 31)],
      (x.1 < 32 ∧ x.2 < 32) ∧ (x.1 = 0 ∧ 8 ≤ x.2 ∨ 1 ≤ x.1 ∧ x.1 ≤ 16 ∧ x.2 % 8 = 6 ∨ x.1 = 17 ∧ 5 ≤ x.2 ∨ 18 ≤ x.1) ∧
        (writesWord up x.1 x.2 1).rfe.rq = .wordWrite (up.capacity.cells - 32 + x.1) x.2 (leBytes 8 1) :: []) ∧
    (31 < 32 ∧ (asked up (.cellWrite (up.capacity.cells - 32 + 31) (zeros 256))).dcc.writeQ.length < 32) ∧
    ∀ x ∈ [((0, 0), isSettingWord), ((0, 1), isStoreWord), ((0, 2), isQuietWord), ((0, 6), isAlertWord),
        ((16, 31), isEnableWord 1), ((0, 7), isSoftResetWord), ((17, 0), isCounterClearWord),
        ((17, 4), isFlagClearWord)],
      (writesWord up x.1.1 x.1.2 1).headCarries x.2 = true ∧ (writesWord up 18 0 1).headCarries x.2 = false ∧
        (writesWord up 1 7 0).headCarries (isEnableWord 0) = true ∧
        (writesWord up 1 7 1).headCarries (isEnableWord 0) = false := by
  decide +kernel

/-- An active ring; a refused enable; an enable that passes; and the disables of an OFF and of an active ring. -/
theorem witness_EnableWordsFollowTheirTable :
    (∀ base ∈ [201000, 201027, 201028], ∀ value ∈ [0, 1, 2],
      let s := writesWord (rings2and3 base) 1 31 value
      s.dcc.writeQ.length < 32 ∧ s.rfe.rq = .wordWrite (s.capacity.cells - 32 + 1) 31 (leBytes 8 value) :: [] ∧
        leNat (leBytes 8 value) = value ∧ (s.ring 3).state = .off ∧ s.refusesEnable 3 = decide (base < 201028)) ∧
    ∀ value ∈ [0, 1],
      let s := writesWord (rings2and3 0) 1 23 value
      s.rfe.rq = .wordWrite (s.capacity.cells - 32 + 1) 23 (leBytes 8 value) :: [] ∧ (s.ring 2).state ≠ .off := by
  decide +kernel

theorem witness_SoftResetStartsOrCompletes : leNat (leBytes 8 0) ≠ 1 ∧
    ∀ x ∈ [({ up with swu.softReset := true, hst.flush := true }, true, true), (up, false, true),
        (holding [slotOf 0 70020 .held 1 4 2], false, false)],
      let s := writesWord x.1 0 7 1
      s.dcc.writeQ.length < 32 ∧ leNat (leBytes 8 1) = 1 ∧
        s.rfe.rq = .wordWrite (s.capacity.cells - 32) 7 (leBytes 8 1) :: [] ∧ s.swu.softReset = x.2.1 ∧
        decide (s.hst.slots = []) = x.2.2 := by
  decide +kernel

theorem witness_ClearWordsClear : leNat (leBytes 8 2) ≠ 1 ∧
    (writesWord up 17 0 2).rfe.rq = .wordWrite (up.capacity.cells - 32 + 17) 0 (leBytes 8 2) :: [] ∧
    ∀ w ∈ [0, 1, 4], (writesWord up 17 w 1).dcc.writeQ.length < 32 ∧ leNat (leBytes 8 1) = 1 ∧
      (writesWord up 17 w 1).rfe.rq = .wordWrite (up.capacity.cells - 32 + 17) w (leBytes 8 1) :: [] := by
  decide +kernel

/-- The part with both DRAM queues full, or with every response entry in use. -/
def full : State :=
  { with6 ring6 with dcc.readQ := List.replicate 32 readR1, dcc.writeQ := List.replicate 32 writeW1 }

/-- The part with both DRAM queues full and every condition for admission at ring 6 met but the one changed. -/
def almost (r : Ring) (h : HoldStore) : State :=
  { full.setRing 6 { r with drain := if r.drain = 0 then 160 else r.drain } with hst := { h with holdEnable := true } }

/-- Each of the conditions of R100 missing: copies, hold horizon, STALLED, ring hold enable, flush, and a FREE slot. -/
theorem almost_fails :
    (32 ≤ (almost ring6 .reset).dcc.writeQ.length ∧ (almost ring6 .reset).ringClass 1007 = .position 6 5 ∧
      (almost ring6 .reset).cellClass 1007 = .buffer ∧ (almost ring6 .reset).hst.lookup? 1007 = none) ∧
    (¬(almost ring6 .reset).WouldAdmit 6 5 (plainCell 3 0)) ∧
    (¬(almost { ring6 with drain := 1 } .reset).WouldAdmit 6 5 (plainCell 3 1)) ∧
    (¬(almost { ring6 with state := .stalled } .reset).WouldAdmit 6 5 (plainCell 3 1)) ∧
    (¬(almost { ring6 with settings.holdEnable := false } .reset).WouldAdmit 6 5 (plainCell 3 1)) ∧
    (¬(almost ring6 { HoldStore.reset with flush := true }).WouldAdmit 6 5 (plainCell 3 1)) ∧
    ∀ slots : List Slot, (∀ n, n < 2048 → ∃ x ∈ slots, x.num = n) →
      ¬(almost ring6 { HoldStore.reset with slots := slots }).WouldAdmit 6 5 (plainCell 3 1) := by
  refine ⟨by decide +kernel, by decide +kernel, by decide +kernel, by decide +kernel, by decide +kernel, fun h => ?_,
    fun slots hs ⟨_, _, _, _, _, ⟨n, hn, hx⟩, _⟩ => ?_⟩
  · exact absurd h.2.2.2.2.2.2 (by decide)
  · obtain ⟨x, hm, he⟩ := hs n hn
    exact hx x hm he
def answering : State :=
  { up with rfe.responses := (List.range 64).map (fun n => { claimed with id := n, claim := none }) }

theorem witness_HeadWaitsForItsNeed :
    (∀ data, ¬full.WouldAdmit 6 0 data) ∧
    (32 ≤ full.dcc.writeQ.length ∧ 32 ≤ full.dcc.readQ.length ∧ full.hst.holdEnable = false ∧ 7#8 ∉ full.rfe.tags ∧
      full.hst.lookup? 1001 = none ∧ full.cellClass 1001 = .buffer ∧ full.ringClass 1001 = .lead 6 ∧
      full.cellClass 1002 = .buffer ∧ full.ringClass 1002 = .position 6 0 ∧ full.cellClass 16777184 = .control 0) ∧
    (∀ q ∈ [Request.cellWrite 1001 [], .wordWrite 1001 0 [], .cellRead 1001 7, .wordRead 1001 0 7],
      (asked full q).rfe.rq = q :: []) ∧
    ∀ n, n < 64 → ∃ r ∈ answering.rfe.responses, r.id = n := by
  refine ⟨fun data h => ?_, by decide +kernel⟩
  exact absurd h.1 (by decide)

theorem witness_EpochExpiryTakesDeviceSettings : up.sje.timer ≠ none := by decide

/-- An OFF ring; a ring at the stall limit and one below it; rings that enter INCAST, CONGESTED and CLEAR. -/
theorem witness_EpochExpiryWorksOnEveryRing :
    let s := (up.setRing 9 { ring9 with stall := 3 }).setRing 8 { ring9 with senders := sendersUpTo 6 }
    s.sje.timer ≠ none ∧
    after (exec .epochExpiry ((s.setRing 7 { ring9 with occ := 1, reads := 1 }).setRing 6 { ring9 with reads := 1 }))
      (fun t => [(t.ring 5).state, (t.ring 6).state, (t.ring 7).state, (t.ring 8).state, (t.ring 9).state]) =
      some [.off, .congested, .clear, .incast, .stalled] := by
  decide +kernel

/-- A flag that goes from clear to set, on a line in a level mode and on one in a pulse mode with the event enabled. -/
theorem witness_ExpiryEventsFlagTheirLines :
    let s := up.setRing 9 { ring9 with state := .clear, senders := sendersUpTo 6 }
    let lines := fun (s : State) =>
      after (exec .epochExpiry s) (fun t => t.alerts.toList.map (fun l => (l.flags.toNat, l.pulse)))
    s.sje.timer ≠ none ∧ lines s = some [(0, none), (1, none), (0, none), (0, none)] ∧
    lines { s with alerts := s.alerts.set 1 line1 } =
      some [(0, none), (1, some { level := false, width := .us100 }), (0, none), (0, none)] := by
  decide +kernel

theorem witness_RefreshesComeDueAndComplete :
    ({ up with dcc.inFlight := some { op := .refresh, duration := 160 } } : State).dcc.inFlight =
        some { op := .refresh, duration := 160 } ∧
    up.dcc.refreshTimer ≠ none ∧ ({ up with dcc.backlog := 7 } : State).dcc.backlog < 8 ∧
      8 ≤ ({ up with dcc.backlog := 8 } : State).dcc.backlog := by
  decide

/-- The part with a quiet delay of 1 µs and its timer running, every other condition met. -/
def resting : State := { up with dcc.quietDelay := 1, dcc.quietTimer := .running 1 }

/-- A timer that does not run; a running one with every other condition met, with a request queued, and with the channel
in WAKING. -/
theorem witness_QuietTimerExpirySettlesTheExpiredTimer :
    up.dcc.quietTimer = .stopped ∧
    (resting.dcc.quietTimer = .running 1 ∧ resting.dcc.state = .run ∧ resting.dcc.readQ = [] ∧ resting.dcc.writeQ = [] ∧
      resting.dcc.inFlight = none ∧ resting.dcc.inHand = none ∧ resting.hst.slots = [] ∧ resting.dcc.backlog = 0 ∧
      resting.dcc.quietDelay ≠ 0 ∧ resting.rfe.rq = []) ∧
    ((asked resting (.cellRead 5 9)).dcc.quietTimer = .running 1 ∧ (asked resting (.cellRead 5 9)).dcc.state = .run ∧
      (asked resting (.cellRead 5 9)).rfe.rq ≠ []) ∧
    ({ resting with dcc.state := .waking } : State).dcc.quietTimer = .running 1 ∧ ChannelState.waking ≠ .run := by
  decide +kernel

/-- A response that waits for DRAM, with entry 1 and tag 4. -/
def waiting : Response := { claimed with id := 1, state := .waiting, tag := 4, data := [], claim := none }

/-- The part with a read of cell 1300 in flight for entry 1. -/
def reading (dropped : Bool) : State :=
  { up with
    rfe.responses := if dropped then [] else [waiting], rfe.tags := if dropped then [] else [4]
    dcc.inFlight := some { op := .read readR1 dropped, duration := 20 }, dcc.nextSeq := 1 }

theorem witness_ReadCompletionFillsItsEntry :
    (reading true).dcc.inFlight = some { op := .read readR1 true, duration := 20 } ∧
      (reading false).dcc.inFlight = some { op := .read readR1 false, duration := 20 } ∧ (reading false).RequestsOk := by
  unfold State.RequestsOk; decide +kernel

theorem witness_WriteCompletionChangesItsBytesOnly :
    ∀ e ∈ [writeW1, { writeW1 with payload := .partialWord 31 (zeros 8) }],
      ({ up with dcc.inFlight := some { op := .write e, duration := 20 } } : State).dcc.inFlight =
        some { op := .write e, duration := 20 } := by
  decide +kernel

/-- The part with the retirement of slot 0 in flight, the slot in this state. -/
def retiring (st : SlotState) (flush : Bool) (others : List Slot) : State :=
  { holding (slotOf 0 70020 st 1 4 1 :: others) with
    hst.flush := flush, dcc.inHand := some retiringY
    dcc.inFlight := some { op := .retirement retiringY, duration := 20 } }

/-- Freed in a flush with another slot left, freed as the last slot of a flush, and returned. -/
theorem witness_RetirementCompletionFreesOrReturnsTheSlot :
    ∀ x ∈ [(SlotState.retiring, false, []), (.retiring, true, [slotOf 1 50010 .held 1 3 3]), (.retiring, true, []),
        (.retiringWritten, false, [])],
      (retiring x.1 x.2.1 x.2.2).dcc.inFlight = some { op := .retirement retiringY, duration := 20 } ∧
        (retiring x.1 x.2.1 x.2.2).hst.slot? 0 = some (slotOf 0 70020 x.1 1 4 1) ∧
        (retiring x.1 x.2.1 x.2.2).hst.slots.filter (fun y => y.num != 0) = x.2.2 := by
  decide +kernel

/-- A sending with no claim, with TAG_REUSED; with a claim on a slot of two reads, of one read, and on the last slot of a
flush. -/
theorem witness_ResponseSentActsOnItsClaim :
    ({ sending up with rfe.responses := [{ claimed with claim := none, status := .tagReused }], rfe.tags := [] } :
      State).RequestsOk ∧
    ∀ x ∈ [(2, false, [slotOf 0 70020 .held 1 4 2]), (1, false, []), (1, true, [slotOf 0 70020 .held 1 4 2]),
        (1, true, [])],
      let s := { sending (holding (slotOf 1 50010 .held x.1 3 3 :: x.2.2)) with hst.flush := x.2.1 }
      s.RequestsOk ∧ s.clp.tx = .readData 5 [] ∧ claimed ∈ s.rfe.responses ∧ claimed.id = 5 ∧ claimed.claim = some 1 ∧
        s.hst.slot? 1 = some (slotOf 1 50010 .held x.1 3 3) ∧ s.hst.slots.filter (fun y => y.num != 1) = x.2.2 := by
  unfold State.RequestsOk
  refine ⟨by decide +kernel, fun x h => ⟨?_, ?_⟩⟩
  · exact ⟨by decide +kernel +revert, by decide +kernel +revert, by decide +kernel +revert, by decide +kernel +revert,
      by decide +kernel +revert⟩
  · decide +kernel +revert

/-- A flag that starts a pulse in each pulse mode, a flag already set, which starts none, and a running pulse. -/
theorem witness_PulsesStartAndEnd :
    (∀ l ∈ [line1, { line1 with mode := .pulseHigh }],
      l.pulse = none ∧ l.flags &&& Event.incastOn.bit = 0 ∧ l.mask &&& Event.incastOn.bit ≠ 0) ∧
    ({ line1 with flags := 1 } : AlertLine).flags &&& Event.incastOn.bit ≠ 0 ∧
    (line1.raise .incastOn).pulse = some { level := false, width := .us100 } := by
  decide

/-- The link that trains; work and none in QUIET; INIT, WAKING and an operation in flight; the quiet conditions met and
missed in RUN; and an idle channel and transmitter after settling. -/
theorem witness_EventsSettle :
    let quiet := fun (s : State) => { s with dcc.state := .quiet }
    let rested : State := { resting with dcc.quietTimer := .expired }
    (({ down with clp.lanes := 0xFF } : State).clp.state = .down ∧ down.dcc.state ≠ .init ∧
      ¬(up.clp.state = .down)) ∧
    ((quiet (choosing [readR1] [] 0)).HasDramWork ∧ (quiet (choosing [] [writeW1] 0)).HasDramWork ∧
      (quiet (choosing [] [] 0)).HasDramWork ∧ ¬(quiet up).HasDramWork) ∧
    ((initial 0xFF).dcc.state = .init ∧ (reading false).dcc.inFlight ≠ none ∧ (reading false).dcc.state ≠ .quiet) ∧
    (rested.dcc.state = .run ∧ rested.QuietConditions ∧ rested.dcc.inHand = none) ∧
    ((choosing [] [] 1).dcc.state = .run ∧ (choosing [] [] 1).dcc.inFlight = none ∧ ¬(choosing [] [] 1).QuietConditions) ∧
    (up.settle.dcc.state = .run ∧ up.settle.dcc.inFlight = none ∧ up.EntriesOk ∧ up.settle.clp.state = .up ∧
      up.settle.clp.tx = .idle) := by
  decide +kernel

/-- The part with one READY response, this many credits owed, and this last frame. -/
def answers (owed : Nat) (last : Bool) (r : Response) : State :=
  { up with
    clp.owed := owed, clp.lastWasCredit := last
    rfe.responses := [{ r with state := .ready }], rfe.ready := [r.id], rfe.tags := [r.tag] }

/-- A CREDIT frame under way; a link in DOWN; and each line of the transmitter's choice, with what it then sends: CREDIT
before a READY response, the response after a CREDIT frame and with nothing owed, CREDIT again with no response, and
nothing. Status TAG_REUSED and extent word give byte 0 the value 18h. -/
theorem witness_TransmitterChoosesTheNextFrame :
    (({ up with clp.tx := .credit [] } : State).clp.tx = .credit [] ∧ down.clp.state ≠ .up) ∧
    (∀ s ∈ [answers 1 false claimed, answers 64 true claimed,
        answers 0 false { claimed with status := .tagReused, extent := .word 0, data := zeros 8 },
        { up with clp.owed := 64, clp.lastWasCredit := true }, up],
      s.clp.state = .up ∧ s.clp.tx = .idle ∧ s.EntriesOk) ∧
    [answers 1 false claimed, answers 64 true claimed,
      answers 0 false { claimed with status := .tagReused, extent := .word 0, data := zeros 8 },
      { up with clp.owed := 64, clp.lastWasCredit := true }, up].map
      (fun s => match s.settle.clp.tx with
        | .credit f => (f.length, (f.take 4).map BitVec.toNat)
        | .readData _ f => (f.length, (f.take 4).map BitVec.toNat)
        | .idle => (0, [])) =
      [(8, [1, 1, 0, 0]), (264, [0, 9, 0, 0]), (16, [24, 9, 0, 0]), (8, [1, 64, 0, 0]), (0, [])] := by
  decide +kernel

/-- Each rank of the arbiter, the backlog at the edges of its ranks. -/
theorem witness_ArbiterWalksTheRanks :
    (∀ s ∈ [choosing [readR1, readR2, readR3] [writeW1] 4, choosing [readR3] [writeW1] 4, choosing [] [] 3],
      s.dcc.OrderOk ∧ s.dcc.state = .run ∧ s.dcc.inFlight = none) ∧
    [choosing [readR1] [writeW1] 8, { choosing [readR1] [writeW1] 7 with hst.flush := true },
      choosing [readR1] [writeW1] 7, choosing [] [writeW1] 4, choosing [] [writeW1] 3, choosing [] [] 3,
      { choosing [] [] 1 with hst.lowMark := 2 }, { choosing [] [] 0 with hst.lowMark := 2 },
      { choosing [] [] 0 with hst.slots := [] }].map State.choose =
    [.refresh, .retirement .must, .read readR1, .refresh, .write writeW1, .retirement .need, .refresh, .retirement .may,
      .nothing] := by
  decide +kernel

/-- A store with no HELD slot; a HELD slot behind a RETIRING one, chosen and copied; a retirement in hand that an urgency
of NONE leaves at MAY; and the operation performed, with no entry of the cell queued, an older read, and an older write. -/
theorem witness_RetirementTakesTheOldestHeldSlot :
    (retiring .retiring false []).hst.slots.filter (fun x => x.state = .held) = [] ∧
    (retiring .retiring false []).retirementRank = .may ∧
    (let s := holding [slotOf 0 70020 .retiring 1 4 1, slotOf 1 50010 .held 1 3 3, slotOf 2 50011 .held 1 3 3];
      s.dcc.inHand = none ∧ s.hst.slots.filter (fun x => x.state = .held) =
        slotOf 1 50010 .held 1 3 3 :: [slotOf 2 50011 .held 1 3 3] ∧
      (s.retire .may).hst.slots.map (fun x => (x.num, x.state)) = [(0, .retiring), (1, .retiring), (2, .held)]) ∧
    let c := (choosing [readR3] [writeW1] 0).dcc
    c.OrderOk ∧
    (∀ x ∈ [(9000, Operation.write writeW1), (1300, .retirement { retiringY with cell := 1300 })],
      ((c.beginRetirement { retiringY with cell := x.1 }).inFlight.map (fun f => f.op)) = some x.2) ∧
    ((choosing [readR1] [] 0).dcc.beginRetirement { retiringY with cell := 1300 }).inFlight.map (fun f => f.op) =
      some (.read readR1 false) := by
  decide +kernel

theorem witness_SameCellOrderIsKept :
    ∀ s ∈ [choosing [readR1, readR2, readR3] [writeW1] 4, choosing [readR3] [writeW1] 3, choosing [] [] 3],
      s.dcc.OrderOk ∧ s.dcc.state = .run ∧ s.dcc.inFlight = none ∧ s.arbitrate.dcc.inFlight ≠ none := by
  decide +kernel

/-- A state in which every part of the machine has something under way, with a CELL_WRITE to take. -/
def live : State :=
  { with6 { ring6At 11 6 5 1 [recordAt 6 1 1, recordAt 9 2 2, recordAt 10 1 1] with
      senders := sendersUpTo 16, drain := 65520, credit := 255, lastT := 65535, counters.admitted := 2 } with
    poolFree := 4093
    rfe := { rq := [.cellWrite 1013 (plainCell 3 1)], responses := [waiting, claimed], ready := [], tags := [4, 9] }
    clp.tx := .readData 5 []
    clp.owed := 64
    hst := { HoldStore.reset with slots := [slotOf 0 70020 .retiring 1 4 1, slotOf 1 50010 .held 1 3 3] }
    dcc.readQ := [readR1], dcc.writeQ := [writeW1], dcc.nextSeq := 4, dcc.inHand := some retiringY, dcc.backlog := 8
    dcc.inFlight := some { op := .retirement retiringY, duration := 20 }
    dram.mem := [(0, 1), (300, 2)]
    pending := [.cellWrite] }

theorem live_steps : ∃ t, step live = .next t := ⟨_, rfl⟩

theorem witness_MemoryStaysCanonical : live.dram.mem.wf ∧ ∃ t, step live = .next t := ⟨by decide, live_steps⟩

set_option synthInstance.maxSize 1000 in
set_option synthInstance.maxHeartbeats 400000 in
theorem witness_RingsStayInRange : live.RingsOk ∧ ∃ t, step live = .next t := ⟨by decide +kernel, live_steps⟩

theorem witness_PoolAlwaysNumbers4096 : live.PoolOk ∧ ∃ t, step live = .next t := ⟨by decide +kernel, live_steps⟩

theorem live_storeOk : live.StoreOk := by
  refine ⟨by decide +kernel, ⟨by decide +kernel, by decide +kernel, fun f hf r h => ?_⟩, ?_⟩
  · obtain rfl := Option.some.inj hf
    cases h
    rfl
  · intro r hr n hn
    rcases List.mem_cons.mp hr with rfl | hr
    · cases hn
    · obtain rfl := List.mem_singleton.mp hr
      cases hn
      decide +kernel

theorem witness_StoreStaysConsistent : live.StoreOk ∧ ∃ t, step live = .next t :=
  ⟨live_storeOk, live_steps⟩

theorem witness_RequestsStayConsistent : live.RequestsOk ∧ ∃ t, step live = .next t :=
  ⟨by unfold State.RequestsOk; decide +kernel, live_steps⟩

theorem live_sizesOk : live.SizesOk := by
  refine ⟨fun r h => ?_, by decide +kernel, fun w h => ?_, by decide +kernel, ?_, by decide +kernel,
    fun f hf e h => ?_⟩
  · obtain rfl := List.mem_singleton.mp h
    exact ⟨by decide, by decide +kernel⟩
  · obtain rfl := List.mem_singleton.mp h
    exact List.length_replicate
  · exact List.forall_mem_cons.mpr ⟨⟨trivial, by decide +kernel⟩, List.forall_mem_cons.mpr
      ⟨⟨trivial, by decide +kernel⟩, fun _ h => nomatch h⟩⟩
  · obtain rfl := Option.some.inj hf
    cases h

theorem witness_SizesStayExact : live.RequestsOk ∧ live.SizesOk ∧ ∃ t, step live = .next t :=
  ⟨witness_RequestsStayConsistent.1, live_sizesOk, live_steps⟩

theorem witness_InitAndLinkStayClean : (live.InitOk ∧ live.LinkOk ∧ live.RegionsOk ∧ ∃ t, step live = .next t) ∧
    (initial 0xFF).InitOk ∧ (initial 0xFF).LinkOk ∧ training.LinkOk :=
  ⟨⟨by decide +kernel, by decide +kernel, by decide +kernel, live_steps⟩, by decide +kernel⟩

theorem witness_LimitsHold : live.QueuesOk ∧ live.SettingsOk ∧ ∃ t, step live = .next t :=
  ⟨by decide +kernel, by decide +kernel, live_steps⟩

theorem live_balanceOk : live.BalanceOk := by unfold State.BalanceOk State.admittedSum; decide +kernel

/-- A CELL_WRITE taken, whose head carries no counter-clear word. -/
theorem witness_StoreCountersBalance : live.StoreOk ∧ live.BalanceOk ∧ ∃ t, step live = .next t ∧ t.Unsaturated ∧
    ∀ c ∈ live.pending.head?, TakesHead c → live.headCarries isCounterClearWord = true → t.rfe.rq = live.rfe.rq :=
  ⟨witness_StoreStaysConsistent.1, live_balanceOk, _, rfl, by unfold State.Unsaturated; decide +kernel,
    fun _ _ _ h => absurd h (by decide +kernel)⟩

/-- A retirement's completion while a head that carries a counter-clear word waits. -/
theorem witness_StoreCountersBalance_waiting :
    let s : State := { live with
      rfe.rq := (writesWord up 17 0 1).rfe.rq, capacity := (writesWord up 17 0 1).capacity
      pending := [.retirementCompletion] }
    s.StoreOk ∧ s.BalanceOk ∧ s.headCarries isCounterClearWord = true ∧
      (∃ t, step s = .next t ∧ t.Unsaturated ∧ t.counters.retired = 1) ∧ ∀ c ∈ s.pending.head?, ¬TakesHead c :=
  ⟨witness_StoreStaysConsistent.1, live_balanceOk, by decide +kernel,
    ⟨_, rfl, by unfold State.Unsaturated; decide +kernel, by decide +kernel⟩, by decide +kernel⟩

theorem witness_OnlyTheirEventsMoveThem : (∃ t, exec .cellWrite live = .next t) ∧
    (∀ cause, Instr.cellWrite ≠ .powerOnReset cause) ∧ (live.ring 6).state ≠ .off ∧
    after (exec .cellWrite live) (fun t => (t.ring 6).state) = some .clear :=
  ⟨⟨_, rfl⟩, fun _ => nofun, by decide +kernel⟩

/-- D above, at and below 16·c, and a shortfall below 2^DW; and a ring below, at and past its thresholds, and with both
thresholds at 0 after the ramp. -/
theorem witness_DrainSojournAndShareFollowTheirFormulas :
    (16 * 6 < 168 ∧ 16 * 10 ≤ 160 ∧ 160 ≤ 16 * 10 ∧ 100 ≤ 16 * 7 ∧ 16 * 7 - 100 < 2 ^ 4) ∧
    ring6.settings.tl < ring6.settings.th ∧ ring6.settings.ps ≤ 256 ∧
    [(1, 65520), (1, 4), (319, 256), (320, 256)].map (fun x => ({ ring6 with drain := x.2 } : Ring).shareAt x.1) =
      [0, 0, 63, 256] ∧
    ({ ring6 with settings.tl := 0, settings.th := 1, ramp := 1, drain := 65520 } : Ring).shareAt 0 = 256 := by
  decide +kernel

/-- The sum at 255 and at 256, with the largest A and P. -/
theorem witness_DecisionsFollowTheTableAndRunsCountTheShare :
    (255 + 0 < 256 ∧ 256 ≤ 255 + 1 ∧ 256 ≤ 256 ∧ 255 ≤ 255) ∧
    (decideMark .alreadyCe .carry 255 256).credit = 255 ∧ (decideMark .notMarkable .spend 255 256).credit = 255 := by
  decide

/-- Headers of 20 and of 60 bytes, the longer at the last place of a tagged frame. -/
theorem witness_RewriteChangesItsBytesAndKeepsTheChecksum :
    ∀ x ∈ [(22, 10), (30, 30)],
      let data := cellOf 3 1 (zeros (x.1 - 14) ++ [0x45, 0x02])
      10 ≤ x.2 ∧ x.1 + 2 * x.2 ≤ data.length ∧
        ((List.range x.2).map (fun i => beGroup data (x.1 + 2 * i))).foldl onesAdd 0 ≠ 0 := by
  decide +kernel

end Sys2Proof.Tests
end

section
/-! PROOFS. Cells and the decision on a packet: what the parse of a first cell gives, field by field, and the table of R79
with the run it makes. Settles O10 and O58. -/

namespace Sys2Proof.Machine

/-! ### The first cell of a packet (R7 to R11) -/

theorem parse_tags (data : List Byte) : (parse data).tags =
    if beGroup data 20 = 0x8100#16 ∨ beGroup data 20 = 0x88A8#16 then
      (if beGroup data 24 = 0x8100#16 then 2 else 1) else 0 := by
  simp only [parse, tagWalk]
  split_ifs <;> rfl

/-- The EtherType a tag walk ends at follows the tags it counts. -/
theorem tagWalk_etherType (data : List Byte) : (tagWalk data).2 = beGroup data (20 + 4 * (tagWalk data).1) := by
  simp only [tagWalk]
  split_ifs <;> rfl

theorem parse_kind (data : List Byte) : (parse data).kind =
    frameKind (beGroup data (20 + 4 * (parse data).tags)) (byteAt data (headerOffset (parse data).tags)) :=
  congrArg (frameKind · _) (tagWalk_etherType data)

theorem parse_offset (data : List Byte) : (parse data).offset =
    if (parse data).kind = .other then none else some (headerOffset (parse data).tags) := rfl

theorem parse_signature (data : List Byte) :
    (parse data).signature = frameSignature data (headerOffset (parse data).tags) (parse data).kind := rfl

theorem parse_ecn (data : List Byte) :
    (parse data).ecn = frameEcn data (headerOffset (parse data).tags) (parse data).kind := rfl

theorem frameKind_eq_ipv4_iff {e : BitVec 16} {b : Byte} :
    frameKind e b = .ipv4 ↔ e = 0x0800#16 ∧ b.toNat / 16 = 4 ∧ 5 ≤ b.toNat % 16 := by
  unfold frameKind
  split_ifs with h4 h6 <;> simp [h4]

/-- The EtherTypes differ, so no frame is of both IP kinds. -/
theorem frameKind_eq_ipv6_iff {e : BitVec 16} {b : Byte} :
    frameKind e b = .ipv6 ↔ e = 0x86DD#16 ∧ b.toNat / 16 = 6 := by
  unfold frameKind
  split_ifs with h4 h6
  · simp [h4.1]
  · simp [h6]
  · simp [h6]

/-- A frame that is of neither IP kind is of the kind other. -/
theorem FrameKind.eq_other {k : FrameKind} (h4 : k ≠ .ipv4) (h6 : k ≠ .ipv6) : k = .other := by
  cases k <;> trivial

/-- The two bits of a byte from bit `i` up, as the number they spell. -/
theorem toNat_two_bits (b : Byte) (i : Nat) :
    b.toNat / 2 ^ i % 4 = 2 * (b.getLsbD (i + 1)).toNat + (b.getLsbD i).toNat := by
  have hi : b.toNat / 2 ^ (i + 1) = b.toNat / 2 ^ i / 2 := by rw [pow_succ, Nat.div_div_eq_div_mul]
  simp only [BitVec.getLsbD, Nat.toNat_testBit, hi]
  omega

theorem frameEcn_ipv4 (data : List Byte) (o : Nat) : frameEcn data o .ipv4 =
    .ofBits (2 * ((byteAt data (o + 1)).getLsbD 1).toNat + ((byteAt data (o + 1)).getLsbD 0).toNat) := by
  rw [← toNat_two_bits, pow_zero, Nat.div_one]
  rfl

theorem frameEcn_ipv6 (data : List Byte) (o : Nat) : frameEcn data o .ipv6 =
    .ofBits (2 * ((byteAt data (o + 1)).getLsbD 5).toNat + ((byteAt data (o + 1)).getLsbD 4).toNat) := by
  rw [← toNat_two_bits]
  rfl

/-- Settles O10: the tag count places the EtherType and the header, and these decide the kind; each field then follows
the kind. -/
theorem firstCellIsParsed : Obligations.FirstCellIsParsed := by
  intro data two tags o version codepoint ipv4 ipv6
  have htags : (parse data).tags = tags := parse_tags data
  have hkind : (parse data).kind = frameKind (two (20 + 4 * tags)) (byteAt data o) := by
    rw [parse_kind, htags]; rfl
  have h4 : (parse data).kind = .ipv4 ↔ ipv4 := hkind ▸ frameKind_eq_ipv4_iff
  have h6 : (parse data).kind = .ipv6 ↔ ipv6 := hkind ▸ frameKind_eq_ipv6_iff
  have ho : headerOffset (parse data).tags = o := congrArg headerOffset htags
  have hcode (high low : Bool) : Ecn.ofBits (2 * high.toNat + low.toNat) = codepoint high low := by
    cases high <;> cases low <;> rfl
  refine ⟨htags, rfl, rfl, fun is4 => ?_, fun is6 => ?_, fun not4 not6 => ?_⟩
  · have k := h4.mpr is4
    rw [parse_offset, parse_signature, parse_ecn, ho, k, frameEcn_ipv4, hcode]
    exact ⟨rfl, rfl, by simp [frameSignature, xorGroups, two, beGroup], rfl⟩
  · have k := h6.mpr is6
    rw [parse_offset, parse_signature, parse_ecn, ho, k, frameEcn_ipv6, hcode]
    exact ⟨rfl, rfl, by simp [frameSignature, xorGroups, two, beGroup, BitVec.xor_assoc], rfl⟩
  · have k := FrameKind.eq_other (mt h4.mp not4) (mt h6.mp not6)
    rw [parse_offset, parse_signature, parse_ecn, ho, k]
    exact ⟨rfl, rfl, by simp [frameSignature, xorGroups, two, beGroup, BitVec.xor_assoc], rfl⟩

/-! ### The kind for marking, the decision and its runs (R12, R79) -/

theorem markKind_exempt (kind : FrameKind) (ecn : Ecn) : markKind true kind ecn = .exempt := rfl

theorem markKind_other (ecn : Ecn) : markKind false .other ecn = .notMarkable := rfl

theorem markKind_notEct (kind : FrameKind) : markKind false kind .notEct = .notMarkable := by cases kind <;> rfl

section
variable {kind : FrameKind} (h : kind ≠ .other)
include h

theorem markKind_ect0 : markKind false kind .ect0 = .markable := by cases kind <;> trivial

theorem markKind_ect1 : markKind false kind .ect1 = .markable := by cases kind <;> trivial

theorem markKind_ce : markKind false kind .ce = .alreadyCe := by cases kind <;> trivial

end

theorem decideMark_exempt (policy : Policy) (a p : Nat) :
    decideMark .exempt policy a p = { decision := .pass, credit := a } := rfl

/-- Below 256 the sum of A and P is kept as the new A, whatever the kind and the policy. -/
theorem decideMark_of_lt {kind : MarkKind} (hk : kind ≠ .exempt) (policy : Policy) {a p : Nat} (h : a + p < 256) :
    decideMark kind policy a p = { decision := .pass, credit := a + p } := by
  cases kind with
  | exempt => exact absurd rfl hk
  | _ => simp [decideMark, h]

section
variable {a p : Nat} (h : 256 ≤ a + p)
include h

theorem decideMark_markable (policy : Policy) :
    decideMark .markable policy a p = { decision := .mark, credit := a + p - 256 } := if_neg (Nat.not_lt.mpr h)

theorem decideMark_alreadyCe (policy : Policy) :
    decideMark .alreadyCe policy a p = { decision := .ceAlready, credit := a + p - 256 } := if_neg (Nat.not_lt.mpr h)

theorem decideMark_notMarkable_spend :
    decideMark .notMarkable .spend a p = { decision := .unmarkable, credit := a + p - 256 } :=
  if_neg (Nat.not_lt.mpr h)

theorem decideMark_notMarkable_carry :
    decideMark .notMarkable .carry a p = { decision := .unmarkable, credit := 255 } := if_neg (Nat.not_lt.mpr h)

end

/-- A stays a byte: a sum of at most 511 is kept below 256, cut by 256, or set to 255. -/
theorem decideMark_credit_le (kind : MarkKind) (policy : Policy) {a p : Nat} (ha : a ≤ 255) (hp : p ≤ 256) :
    (decideMark kind policy a p).credit ≤ 255 := by
  by_cases hk : kind = .exempt
  · rw [hk, decideMark_exempt]; exact ha
  rcases Nat.lt_or_ge (a + p) 256 with h | h
  · rw [decideMark_of_lt hk policy h]; exact Nat.le_of_lt_succ h
  have hcut : a + p - 256 ≤ 255 := by omega
  match kind, policy with
  | .exempt, _ => exact absurd rfl hk
  | .markable, _ => rwa [decideMark_markable h]
  | .alreadyCe, _ => rwa [decideMark_alreadyCe h]
  | .notMarkable, .spend => rwa [decideMark_notMarkable_spend h]
  | .notMarkable, .carry => rw [decideMark_notMarkable_carry h]

/-- One decision on a markable packet, on the count of marks so far and A. -/
def markOnce (policy : Policy) (share : Nat) (x : Nat × Nat) : Nat × Nat :=
  let v := decideMark .markable policy x.2 share
  (x.1 + (if v.decision = .mark then 1 else 0), v.credit)

/-- One decision carries the sum of A and P: its whole multiple of 256 is a mark, the rest the new A. -/
theorem markOnce_eq (policy : Policy) {share a : Nat} (hp : share ≤ 256) (ha : a ≤ 255) (marks : Nat) :
    markOnce policy share (marks, a) = (marks + (a + share) / 256, (a + share) % 256) := by
  unfold markOnce
  rcases Nat.lt_or_ge (a + share) 256 with h | h
  · simp [decideMark_of_lt, h, Nat.div_eq_of_lt, Nat.mod_eq_of_lt]
  · have hdiv : (a + share) / 256 = 1 := by omega
    have hmod : (a + share) % 256 = a + share - 256 := by omega
    simp [decideMark_markable h, hdiv, hmod]

/-- A run keeps 256 times the marks, plus A, at the sum of the shares handed out. -/
theorem markOnce_iterate (policy : Policy) {share a0 : Nat} (hp : share ≤ 256) (ha : a0 ≤ 255) (n : Nat) :
    (markOnce policy share)^[n] (0, a0) = ((a0 + n * share) / 256, (a0 + n * share) % 256) := by
  induction n with
  | zero => simp only [Function.iterate_zero, id, Prod.mk.injEq]; omega
  | succ n ih =>
    have hsum : a0 + (n + 1) * share = a0 + n * share + share := by rw [Nat.succ_mul, Nat.add_assoc]
    rw [Function.iterate_succ_apply', ih, markOnce_eq policy hp (by omega), hsum]
    exact Prod.ext (by simp only; omega) (Nat.mod_add_mod _ _ _)

/-- Settles O58: the table case by case, and the count of a run by induction on its length. -/
theorem decisionsFollowTheTableAndRunsCountTheShare :
    Obligations.DecisionsFollowTheTableAndRunsCountTheShare := by
  refine ⟨fun exempt kind ecn => ⟨?_, ?_, ?_, ?_⟩, fun kind policy a p => ⟨decideMark_exempt policy a p,
    fun hk h => decideMark_of_lt hk policy h, fun h => ⟨decideMark_markable h policy, decideMark_alreadyCe h policy,
      decideMark_notMarkable_spend h, decideMark_notMarkable_carry h⟩, decideMark_credit_le kind policy⟩,
    fun _ _ _ => rfl, fun policy _ _ n hp ha => markOnce_iterate policy hp ha n⟩
  · rintro rfl; exact markKind_exempt kind ecn
  · rintro rfl (rfl | rfl)
    · exact markKind_other ecn
    · exact markKind_notEct kind
  · rintro rfl h (rfl | rfl)
    · exact markKind_ect0 h
    · exact markKind_ect1 h
  · rintro rfl h rfl; exact markKind_ce h

end Sys2Proof.Machine
end

section
/-! PROOFS. One step of the part, said once: the events behind the commands, what the choices that follow an event leave,
and the moves that a step can make in the rings. The invariants of rings, pool, INIT and link are derived from these. -/

namespace Sys2Proof.Machine

/-! ### The events behind the commands -/

/-- The state that an event makes before it settles, with the condition under which the event occurs. -/
inductive State.Happens (s : State) : State → Prop
  | endOfInit (rstn : s.rstnLow = false) (init : s.dcc.state = .init) :
    s.Happens { s.enterRun with sje.timer := some s.sje.el }
  | laneLock (lanes : BitVec 8) : s.Happens { s with clp.lanes := s.clp.lanes ||| lanes }
  | trainingSuccess (h : s.clp.state = .training) : s.Happens s.linkUp
  | laneLockLoss (lane : Fin 8) : s.Happens { s with clp.lanes := clearLane s.clp.lanes lane }.linkDown
  | linkReset (h : s.clp.state ≠ .down) : s.Happens s.linkDown
  | requestFrame (h : s.clp.state = .up) (frame : List Byte) : s.Happens (s.receiveFrame frame)
  | take {r : Request} {rest : List Request} {u : State} (h : s.rfe.rq = r :: rest)
    (e : (s.popHead rest).takeRequest r = some u) : s.Happens u
  | epochExpiry (h : s.sje.timer.isSome = true) : s.Happens s.expireEpoch
  | refreshExpiry (h : s.dcc.refreshTimer.isSome = true) : s.Happens s.expireRefresh
  | quietExpiry (h : s.dcc.quietTimer.isRunning = true) : s.Happens { s with dcc.quietTimer := .expired }
  | wakingEnd (h : s.dcc.state = .waking) : s.Happens s.enterRun
  | readCompletion {e : ReadEntry} {dropped : Bool} (h : s.operation? = some (.read e dropped)) :
    s.Happens (s.completeRead e dropped)
  | writeCompletion {e : WriteEntry} (h : s.operation? = some (.write e)) : s.Happens (s.completeWrite e)
  | retirementCompletion {r : Retirement} (h : s.operation? = some (.retirement r)) :
    s.Happens (s.completeRetirementWrite r)
  | refreshCompletion (h : s.operation? = some .refresh) : s.Happens s.freeChannel
  | responseSent {n : Nat} {frame : List Byte} (r : Response) (h : s.clp.tx = .readData n frame)
    (entry : s.rfe.responses.find? (fun x => x.id == n) = some r) : s.Happens (s.sendResponse r)
  | frameSent (h : s.clp.tx ≠ .idle) : s.Happens { s with clp.tx := .idle }

/-- What a command can make of the state: an event that settles, one of the four that bring nothing else with them, or
nothing (log entries 2 and 13). -/
inductive State.Runs (s : State) : State → Prop
  | same : s.Runs s
  | settles {u : State} (h : s.Happens u) : s.Runs u.settle
  | powerOnReset (dram : Dram) : s.Runs { State.reset with dram := dram, pending := s.pending }
  | rstnRise (capsel : Bool) (h : s.rstnLow = true) :
    s.Runs { s with rstnLow := false, capacity := capselCapacity capsel, dcc.state := .init }
  | trainingFailure (attempt : Nat) (h : s.clp.state = .training) : s.Runs { s with clp.attempt := attempt }
  | pulseEnd (alerts : Vector AlertLine 4) : s.Runs { s with alerts := alerts }

/-- A command of the Request Queue takes the head, where it is of its kind and its need is met (R144). -/
theorem State.Runs.takeIf (s : State) (named : Bool) : s.Runs (s.takeIf named) := by
  unfold State.takeIf
  split
  · unfold State.takeHead
    split
    · exact .same
    · rename_i r rest h
      split
      · rename_i u e; exact .settles (.take h e)
      · exact .same
  · exact .same

/-- A command whose event needs a condition runs it there, and otherwise changes nothing (log entry 2). -/
theorem State.Runs.ite {s t u : State} {c : Prop} [Decidable c] (h : c → s.Runs u) (e : t = if c then u else s) :
    s.Runs t := by
  subst e
  split
  · exact h ‹c›
  · exact .same

/-- A response is sent, or its entry is not there (R152). -/
theorem execResponseSent_runs {s t : State} (e : execResponseSent s = .next t) : s.Runs t := by
  unfold execResponseSent at e
  split at e
  · cases e; exact .same
  · cases e; exact .same
  · rename_i n frame h
    split at e <;> cases e
    · exact .settles (.responseSent _ h ‹_›)
    · exact .settles (.frameSent (by rw [h]; exact nofun))

theorem execCreditFrameSent_runs {s t : State} (e : execCreditFrameSent s = .next t) : s.Runs t := by
  unfold execCreditFrameSent at e
  split at e <;> cases e
  · exact .same
  · rename_i frame h; exact .settles (.frameSent (by rw [h]; exact nofun))
  · exact .same

/-- What each command can make of the state. -/
theorem exec_runs {c : Instr} {s t : State} (e : exec c s = .next t) : s.Runs t := by
  cases c with
  | powerOnReset cause => cases e; exact .powerOnReset _
  | rstnRise capsel => cases e; exact .ite (.rstnRise capsel) rfl
  | endOfInit => cases e; exact .ite (fun h => .settles (.endOfInit h.1 h.2)) rfl
  | laneLock lanes => cases e; exact .settles (.laneLock lanes)
  | trainingSuccess => cases e; exact .ite (fun h => .settles (.trainingSuccess h)) rfl
  | trainingFailure => cases e; exact .ite (.trainingFailure _) rfl
  | laneLockLoss lane => cases e; exact .settles (.laneLockLoss lane)
  | linkReset =>
    cases e
    split
    · exact .same
    · exact .settles (.linkReset ‹_›)
  | requestFrameArrival frame => cases e; exact .ite (fun h => .settles (.requestFrame h frame)) rfl
  | epochExpiry => cases e; exact .ite (fun h => .settles (.epochExpiry h)) rfl
  | refreshTimerExpiry => cases e; exact .ite (fun h => .settles (.refreshExpiry h)) rfl
  | quietTimerExpiry => cases e; exact .ite (fun h => .settles (.quietExpiry h)) rfl
  | wakingEnd => cases e; exact .ite (fun h => .settles (.wakingEnd h)) rfl
  | readCompletion =>
    unfold exec execReadCompletion at e
    dsimp only at e
    split at e <;> cases e
    · exact .settles (.readCompletion ‹_›)
    all_goals exact .same
  | writeCompletion =>
    unfold exec execWriteCompletion at e
    dsimp only at e
    split at e <;> cases e
    · exact .settles (.writeCompletion ‹_›)
    all_goals exact .same
  | retirementCompletion =>
    unfold exec execRetirementCompletion at e
    dsimp only at e
    split at e <;> cases e
    · exact .settles (.retirementCompletion ‹_›)
    all_goals exact .same
  | refreshCompletion =>
    unfold exec execRefreshCompletion at e
    dsimp only at e
    split at e <;> cases e
    · exact .settles (.refreshCompletion ‹_›)
    all_goals exact .same
  | responseSent => exact execResponseSent_runs e
  | creditFrameSent => exact execCreditFrameSent_runs e
  | pulseEnd line => cases e; exact .pulseEnd _
  | _ => cases e; exact .takeIf s _

/-- What a step keeps is what every run of a command keeps, whatever commands wait. -/
theorem step_keeps {I : State → Prop} (waits : ∀ s rest, I s → I { s with pending := rest })
    (runs : ∀ s t, I s → s.Runs t → I t) (s t : State) (hs : I s) (e : step s = .next t) : I t := by
  unfold step at e
  split at e
  · cases e; exact hs
  · exact runs _ t (waits s _ hs) (exec_runs e)

/-! ### What the choices that follow an event leave -/

/-- What the choices that follow an event by themselves leave of what the invariants of rings, pool, INIT and link speak
of: outside UP the requests and the transmitter stand still, and in INIT the channel, the store and the link do. -/
structure State.Chooses (s t : State) : Prop where
  rstnLow : t.rstnLow = s.rstnLow
  capacity : t.capacity = s.capacity
  rings : t.rings = s.rings
  poolFree : t.poolFree = s.poolFree
  sje : t.sje = s.sje
  up : t.clp.state = .up ↔ s.clp.state = .up
  notUp : s.clp.state ≠ .up → t.rfe = s.rfe ∧ t.clp.tx = s.clp.tx ∧ t.clp.owed = s.clp.owed
  init : t.dcc.state = .init ↔ s.dcc.state = .init
  inInit : s.dcc.state = .init → t.dcc = s.dcc ∧ t.hst = s.hst ∧ t.clp.state = s.clp.state

theorem State.Chooses.refl (s : State) : s.Chooses s :=
  ⟨rfl, rfl, rfl, rfl, rfl, Iff.rfl, fun _ => ⟨rfl, rfl, rfl⟩, Iff.rfl, fun _ => ⟨rfl, rfl, rfl⟩⟩

theorem State.Chooses.trans {s t u : State} (a : s.Chooses t) (b : t.Chooses u) : s.Chooses u where
  rstnLow := b.rstnLow.trans a.rstnLow
  capacity := b.capacity.trans a.capacity
  rings := b.rings.trans a.rings
  poolFree := b.poolFree.trans a.poolFree
  sje := b.sje.trans a.sje
  up := b.up.trans a.up
  notUp h := by
    obtain ⟨rfe, tx, owed⟩ := a.notUp h
    obtain ⟨rfe', tx', owed'⟩ := b.notUp (mt a.up.mp h)
    exact ⟨rfe'.trans rfe, tx'.trans tx, owed'.trans owed⟩
  init := b.init.trans a.init
  inInit h := by
    obtain ⟨dcc, hst, state⟩ := a.inInit h
    obtain ⟨dcc', hst', state'⟩ := b.inInit (a.init.mpr h)
    exact ⟨dcc'.trans dcc, hst'.trans hst, state'.trans state⟩

theorem State.startTraining_chooses (s : State) : s.Chooses s.startTraining := by
  rcases s.startTraining_cases with h | ⟨down, notInit, -, h⟩ <;> rw [h]
  · exact .refl s
  · exact ⟨rfl, rfl, rfl, rfl, rfl, by simp [down], fun _ => ⟨rfl, rfl, rfl⟩, Iff.rfl, fun h => absurd h notInit⟩

/-- A choice of the channel's own, made outside INIT and not into it, changes at most the channel and the store. -/
theorem State.Chooses.of_channel {s t : State} (e : t = { s with dcc := t.dcc, hst := t.hst })
    (h : s.dcc.state ≠ .init) (h' : t.dcc.state ≠ .init) : s.Chooses t := by
  rw [e]
  exact ⟨rfl, rfl, rfl, rfl, rfl, Iff.rfl, fun _ => ⟨rfl, rfl, rfl⟩, ⟨fun x => absurd x h', fun x => absurd x h⟩,
    fun x => absurd x h⟩

theorem State.wake_chooses (s : State) : s.Chooses s.wake := by
  rcases s.wake_cases with h | ⟨quiet, h⟩ <;> rw [h]
  · exact .refl s
  · exact .of_channel rfl (by simp [quiet]) nofun

theorem State.enterQuiet_chooses (s : State) : s.Chooses s.enterQuiet := by
  rcases s.enterQuiet_cases with h | ⟨run, -, h⟩ <;> rw [h]
  · exact .refl s
  · exact .of_channel rfl (by simp [run]) nofun

theorem State.arbitrate_chooses (s : State) : s.Chooses s.arbitrate := by
  rcases s.arbitrate_cases with h | ⟨run, -, ⟨-, h⟩ | ⟨u, -, -, h⟩ | ⟨e, -, h⟩ | ⟨w, ws, -, -, h⟩⟩ <;> rw [h]
  · exact .refl s
  · exact .of_channel rfl (by simp [run]) (by simp [Channel.beginRefresh, run])
  · have kept (c : Channel) (r : Retirement) (hc : c.state = .run) : (c.beginRetirement r).state ≠ .init := by
      simp [(c.beginRetirement_keeps r).state, hc]
    rcases s.retire_cases u with ⟨r, -, h⟩ | ⟨x, r, -, -, -, -, -, h⟩ | ⟨-, -, h⟩ <;> rw [h]
    · exact .of_channel rfl (by simp [run]) (kept _ r run)
    · exact .of_channel rfl (by simp [run]) (kept _ r run)
    · exact .refl s
  · exact .of_channel rfl (by simp [run]) (by simp [(s.dcc.beginRead_keeps e).state, run])
  · exact .of_channel rfl (by simp [run]) (by simp [(s.dcc.beginWrite_keeps w).state, run])

theorem State.transmit_chooses (s : State) : s.Chooses s.transmit := by
  rcases s.transmit_cases with h | ⟨up, -, ⟨-, h⟩ | ⟨n, rest, -, h⟩⟩ <;> rw [h]
  · exact .refl s
  · exact ⟨rfl, rfl, rfl, rfl, rfl, Iff.rfl, fun h => absurd up h, Iff.rfl, fun _ => ⟨rfl, rfl, rfl⟩⟩
  · rcases s.startResponse_cases n rest with h | ⟨r, -, -, h⟩ <;> rw [h]
    · exact .refl s
    · exact ⟨rfl, rfl, rfl, rfl, rfl, Iff.rfl, fun h => absurd up h, Iff.rfl, fun _ => ⟨rfl, rfl, rfl⟩⟩

theorem State.settle_chooses (s : State) : s.Chooses s.settle :=
  (((s.startTraining_chooses.trans (State.wake_chooses _)).trans (State.arbitrate_chooses _)).trans
    (State.enterQuiet_chooses _)).trans (State.transmit_chooses _)

/-! ### The moves a step can make in the rings -/

/-- The staged settings that R57 takes without a clamp from above fit their fields (R162). -/
def StagedSettings.InRange (x : StagedSettings) : Prop := x.th ≤ 65535 ∧ x.qf ≤ 65535 ∧ x.hh ≤ 65535

/-- One move in the rings and the free pool: staging and counting, an epoch expiry, a soft reset, the tracking of a write
or a read at a position of an active ring, an enable or a disable. -/
inductive State.RingMove : State → State → Prop
  | stage {s t : State}
    (rings : ∀ k, ∃ g x c, t.ring k = { s.ring k with staged := g, stagedSettings := x, counters := c } ∧
      ((s.ring k).stagedSettings.InRange → x.InRange))
    (poolFree : t.poolFree = s.poolFree) (capacity : t.capacity = s.capacity) : s.RingMove t
  | expire {s t : State} (now : Epoch) (w sl : Nat) (rings : ∀ k, t.ring k = (s.ring k).expire now w sl)
    (poolFree : t.poolFree = s.poolFree) (capacity : t.capacity = s.capacity) : s.RingMove t
  | softReset (s : State) : s.RingMove s.completeSoftReset
  | trackWrite (s : State) {k : Fin 64} {p : Nat} (data : List Byte) (on : (s.ring k).state ≠ .off)
    (inRing : p < (s.ring k).active.length) : s.RingMove (s.trackWrite k p (summaryOf data))
  | trackRead (s : State) {k : Fin 64} {p : Nat} (on : (s.ring k).state ≠ .off)
    (inRing : p < (s.ring k).active.length) : s.RingMove (s.trackRead k p).1
  | enable (s : State) (k : Fin 64) : s.RingMove (s.enableRing k)
  | disable (s : State) (k : Fin 64) : s.RingMove (s.disableRing k)

/-- Moves in the rings, in any number, that leave the reset pin, the link port and the channel's state as they are. -/
structure State.Works (s u : State) : Prop where
  moves : Relation.ReflTransGen State.RingMove s u
  rstnLow : u.rstnLow = s.rstnLow
  clp : u.clp = s.clp
  channel : u.dcc.state = s.dcc.state

theorem State.Works.trans {s t u : State} (a : s.Works t) (b : t.Works u) : s.Works u :=
  ⟨a.moves.trans b.moves, b.rstnLow.trans a.rstnLow, b.clp.trans a.clp, b.channel.trans a.channel⟩

/-- Where the rings stay, nothing has moved in them. -/
theorem State.RingMove.of_rings {s t : State} (rings : t.rings = s.rings) (poolFree : t.poolFree = s.poolFree)
    (capacity : t.capacity = s.capacity) : s.RingMove t :=
  .stage (fun k => ⟨_, _, _, State.ring_of_rings rings k, id⟩) poolFree capacity

/-- Staging and counting in one ring leave the others. -/
theorem State.RingMove.stage_one (s : State) (k : Fin 64) (g : Geometry) (x : StagedSettings) (c : RingCounters)
    (hx : (s.ring k).stagedSettings.InRange → x.InRange) :
    s.RingMove (s.setRing k { s.ring k with staged := g, stagedSettings := x, counters := c }) := by
  refine .stage (fun j => ?_) rfl rfl
  rw [State.ring_setRing]
  split
  · rename_i h; subst h; exact ⟨g, x, c, rfl, hx⟩
  · exact ⟨_, _, _, rfl, id⟩

theorem State.Works.of_move {s u : State} (move : s.RingMove u) (rstnLow : u.rstnLow = s.rstnLow) (clp : u.clp = s.clp)
    (channel : u.dcc.state = s.dcc.state) : s.Works u := ⟨.single move, rstnLow, clp, channel⟩

/-- An operation that leaves all of these alone. -/
theorem State.Works.of_same {s u : State} (rings : u.rings = s.rings) (poolFree : u.poolFree = s.poolFree)
    (capacity : u.capacity = s.capacity) (rstnLow : u.rstnLow = s.rstnLow) (clp : u.clp = s.clp)
    (channel : u.dcc.state = s.dcc.state) : s.Works u := .of_move (.of_rings rings poolFree capacity) rstnLow clp channel

/-- Work that begins once something has changed that none of these speak of. -/
theorem State.Works.after {s t u : State} (work : t.Works u) (rings : t.rings = s.rings)
    (poolFree : t.poolFree = s.poolFree) (capacity : t.capacity = s.capacity) (rstnLow : t.rstnLow = s.rstnLow)
    (clp : t.clp = s.clp) (channel : t.dcc.state = s.dcc.state) : s.Works u :=
  .trans (.of_same rings poolFree capacity rstnLow clp channel) work

/-- The moves of work that begins once something has changed outside the rings. -/
theorem State.Works.moves_after {s t u : State} (work : t.Works u) (rings : t.rings = s.rings)
    (poolFree : t.poolFree = s.poolFree) (capacity : t.capacity = s.capacity) :
    Relation.ReflTransGen State.RingMove s u := .head (.of_rings rings poolFree capacity) work.moves

/-! ### Control words -/

theorem leField_two_le (w : List Byte) (k : Nat) : leField w k 2 ≤ 65535 := by
  have hlt (bs : List Byte) : leNat bs < 256 ^ bs.length := by
    induction bs with
    | nil => simp [leNat]
    | cons b bs ih => rw [leNat, List.length_cons, pow_succ]; have := b.isLt; omega
  have hlen : ((w.drop k).take 2).length ≤ 2 := by simp
  have := (hlt _).trans_le (Nat.pow_le_pow_right (by decide) hlen)
  exact Nat.le_of_lt_succ this

/-- Ring words stage two-byte fields, which keeps the staged settings in range (R161). -/
theorem Ring.writeWord_stages (r : Ring) (j : Fin 7) (w : List Byte) :
    ∃ g x, r.writeWord j w = { r with staged := g, stagedSettings := x } ∧
      (r.stagedSettings.InRange → x.InRange) := by
  match j with
  | 0 | 1 | 3 | 5 | 6 => exact ⟨_, _, rfl, id⟩
  | 2 => exact ⟨_, _, rfl, fun ⟨_, hq, hh⟩ => ⟨leField_two_le w 2, hq, hh⟩⟩
  | 4 => exact ⟨_, _, rfl, fun ⟨ht, _, _⟩ => ⟨ht, leField_two_le w 0, leField_two_le w 2⟩⟩

theorem State.checkFlush_works (s : State) : s.Works s.checkFlush := by
  rcases s.checkFlush_cases with ⟨-, -, h⟩ | ⟨-, h⟩ <;> rw [h]
  · exact .of_move (.softReset s) rfl rfl rfl
  · exact .of_same rfl rfl rfl rfl rfl rfl

theorem State.enableRing_works (s : State) (k : Fin 64) : s.Works (s.enableRing k) := by
  refine .of_move (.enable s k) ?_ ?_ ?_ <;> unfold State.enableRing <;> split_ifs <;> rfl

theorem State.disableRing_works (s : State) (k : Fin 64) : s.Works (s.disableRing k) := by
  refine .of_move (.disable s k) ?_ ?_ ?_ <;> unfold State.disableRing <;> split_ifs <;> rfl

theorem State.writeControl_works (c : ControlWord) (w : List Byte) (s : State) : s.Works (s.writeControl c w) := by
  have same : s.Works s := .of_same rfl rfl rfl rfl rfl rfl
  cases c with
  | epochSettings | refreshQuiet | alertLine | flagClear => exact .of_same rfl rfl rfl rfl rfl rfl
  | plain => exact same
  | storeSettings =>
    unfold State.writeControl State.writeStoreSettings
    dsimp only
    rw [State.raiseStoreMust_eq]
    exact .of_same rfl rfl rfl rfl rfl rfl
  | softReset =>
    unfold State.writeControl State.writeSoftReset State.startSoftReset
    dsimp only
    split_ifs
    · exact same
    · exact .after (State.checkFlush_works _) rfl rfl rfl rfl rfl rfl
    · exact same
  | ring k j =>
    obtain ⟨g, x, e, hx⟩ := (s.ring k).writeWord_stages j w
    unfold State.writeControl
    dsimp only
    rw [e]
    exact .of_move (.stage_one s k g x _ hx) rfl rfl rfl
  | enable k =>
    unfold State.writeControl State.writeEnable
    dsimp only
    split_ifs
    · exact s.enableRing_works k
    · exact s.disableRing_works k
    · exact same
  | counterClear =>
    unfold State.writeControl State.writeCounterClear
    dsimp only
    split_ifs
    · refine .of_move (.stage (fun k => ⟨(s.ring k).staged, _, .zero, ?_, id⟩) rfl rfl) rfl rfl rfl
      simp only [State.ring, State.clearCounters, Fin.getElem_fin, Vector.getElem_map]
    · exact same

theorem State.writeControlCell_works (n : Nat) (data : List Byte) (s : State) : s.Works (s.writeControlCell n data) := by
  unfold State.writeControlCell
  induction List.range 32 generalizing s with
  | nil => exact .of_same rfl rfl rfl rfl rfl rfl
  | cons w ws ih => exact (s.writeControl_works _ _).trans (ih _)

/-! ### Takes -/

theorem State.queueWrite_works {s u : State} {cell : Nat} {w : WriteData} (e : s.queueWrite cell w = some u) :
    s.Works u := by
  obtain ⟨-, rfl⟩ := State.queueWrite_eq_some.mp e
  exact .of_same rfl rfl rfl rfl rfl rfl

theorem State.takePlainWrite_works {s u : State} {cell : Nat} {data : List Byte}
    (e : s.takePlainWrite cell data = some u) : s.Works u := by
  unfold State.takePlainWrite at e
  split at e
  · cases e; exact .of_same rfl rfl rfl rfl rfl rfl
  · exact State.queueWrite_works e

theorem State.admitOrBypass_works {s u : State} {k : Fin 64} {cell : Nat} {data : List Byte}
    (e : s.admitOrBypass k cell data = some u) : s.Works u := by
  rcases s.admitOrBypass_cases k cell data e with ⟨n, -, -, rfl⟩ | ⟨-, -, rfl⟩
  · refine .of_move ?_ (by simp) (by simp) (by simp)
    rw [State.admitCell_eq]
    exact .stage (fun j => by
      change ∃ g x c, (s.setRing k _).ring j = _ ∧ _
      rw [State.ring_setRing]
      split
      · rename_i h; subst h; exact ⟨_, _, _, rfl, id⟩
      · exact ⟨_, _, _, rfl, id⟩) rfl rfl
  · exact .trans (t := s.setRing k { s.ring k with counters.bypassed := bump (s.ring k).counters.bypassed 1 })
      (.of_move (.stage_one s k _ _ _ id) rfl rfl rfl) (.of_same rfl rfl rfl rfl rfl rfl)

theorem State.TrackKeeps.works {k : Fin 64} {s u : State} (keeps : State.TrackKeeps k s u) (move : s.RingMove u) :
    s.Works u := .of_move move keeps.rstnLow keeps.clp (congrArg _ keeps.dcc)

/-- A position that the classification gives is a position of an active ring, below its length (R15, R16). -/
theorem State.ringClass_position_lt {s : State} {cell p : Nat} {k : Fin 64} (h : s.ringClass cell = .position k p) :
    (s.ring k).state ≠ .off ∧ p < (s.ring k).active.length := by
  obtain ⟨on, hp⟩ := State.ringClass_position h
  exact ⟨on, (Geometry.position?_eq_some.mp hp).1⟩

theorem State.takeCellWrite_works {s u : State} {cell : Nat} {data : List Byte}
    (e : s.takeCellWrite cell data = some u) : s.Works u := by
  unfold State.takeCellWrite at e
  split at e
  · cases e; exact .of_same rfl rfl rfl rfl rfl rfl
  · cases e; exact .of_same rfl rfl rfl rfl rfl rfl
  · obtain ⟨v, hv, rfl⟩ := Option.map_eq_some_iff.mp e
    exact (State.queueWrite_works hv).trans (State.writeControlCell_works _ _ _)
  · split at e
    · rename_i k p hc
      obtain ⟨on, hp⟩ := State.ringClass_position_lt hc
      refine .trans ((s.trackWrite_keeps k p (summaryOf data)).works (.trackWrite s _ on hp)) ?_
      unfold State.takePositionWrite at e
      dsimp only at e
      split at e
      · cases e; exact .of_same rfl rfl rfl rfl rfl rfl
      · exact State.admitOrBypass_works e
    · exact State.takePlainWrite_works e
    · exact State.takePlainWrite_works e

theorem State.takeWordWrite_works {s u : State} {cell w : Nat} {data : List Byte}
    (e : s.takeWordWrite cell w data = some u) : s.Works u := by
  unfold State.takeWordWrite at e
  split at e
  · cases e; exact .of_same rfl rfl rfl rfl rfl rfl
  · cases e; exact .of_same rfl rfl rfl rfl rfl rfl
  · obtain ⟨v, hv, rfl⟩ := Option.map_eq_some_iff.mp e
    exact (State.queueWrite_works hv).trans (State.writeControl_works _ _ _)
  · split at e
    · cases e; exact .of_same rfl rfl rfl rfl rfl rfl
    · exact State.queueWrite_works e

theorem State.takeDramRead_works {s u : State} {cell id : Nat} {tag : Tag} {x : Extent} {h : HeaderRead} {boost : Bool}
    (e : s.takeDramRead cell id tag x h boost = some u) : s.Works u := by
  obtain ⟨-, rfl⟩ := State.queueRead_eq_some.mp e
  exact .of_same rfl rfl rfl rfl rfl rfl

theorem State.takeBufferRead_works {s u : State} {cell id : Nat} {tag : Tag} {x : Extent} {h : HeaderRead} {boost : Bool}
    (e : s.takeBufferRead cell id tag x h boost = some u) : s.Works u := by
  rcases State.takeBufferRead_cases e with ⟨slot, -, rfl⟩ | ⟨-, -, e⟩
  · exact .of_same rfl rfl rfl rfl rfl rfl
  · exact .after (State.takeDramRead_works e) rfl rfl rfl rfl rfl rfl

theorem State.takeBufferCellRead_works {s u : State} {cell id : Nat} {tag : Tag}
    (e : s.takeBufferCellRead cell id tag = some u) : s.Works u := by
  unfold State.takeBufferCellRead at e
  split at e
  · rename_i k p hc
    obtain ⟨on, hp⟩ := State.ringClass_position_lt hc
    exact ((s.trackRead_keeps k p).works (.trackRead s on hp)).trans (State.takeBufferRead_works e)
  · exact State.takeBufferRead_works e
  · exact State.takeBufferRead_works e

theorem State.takeCellRead_works {s u : State} {cell : Nat} {tag : Tag} (e : s.takeCellRead cell tag = some u) :
    s.Works u := by
  unfold State.takeCellRead at e
  split at e
  · cases e
  split at e
  · cases e; exact .of_same rfl rfl rfl rfl rfl rfl
  split at e
  · cases e; exact .of_same rfl rfl rfl rfl rfl rfl
  · cases e; exact .of_same rfl rfl rfl rfl rfl rfl
  · exact State.takeDramRead_works e
  · exact State.takeBufferCellRead_works e

theorem State.takeWordRead_works {s u : State} {cell w : Nat} {tag : Tag} (e : s.takeWordRead cell w tag = some u) :
    s.Works u := by
  unfold State.takeWordRead at e
  split at e
  · cases e
  split at e
  · cases e; exact .of_same rfl rfl rfl rfl rfl rfl
  split at e
  · cases e; exact .of_same rfl rfl rfl rfl rfl rfl
  · cases e; exact .of_same rfl rfl rfl rfl rfl rfl
  · exact State.takeDramRead_works e
  · exact State.takeBufferRead_works e

theorem State.takeRequest_works {s u : State} {r : Request} (e : s.takeRequest r = some u) : s.Works u := by
  cases r with
  | cellWrite cell data => exact State.takeCellWrite_works e
  | wordWrite cell w data => exact State.takeWordWrite_works e
  | cellRead cell tag => exact State.takeCellRead_works e
  | wordRead cell w tag => exact State.takeWordRead_works e

/-! ### Sendings and retirements that complete a soft reset -/

theorem State.sendClaim_works (n : Nat) (s : State) : s.Works (s.sendClaim n) := by
  cases h : s.hst.slot? n with
  | none => unfold State.sendClaim; rw [h]; exact .of_same rfl rfl rfl rfl rfl rfl
  | some x =>
    rcases State.sendClaim_cases h with ⟨-, -, e⟩ | ⟨-, e⟩ <;> rw [e]
    · exact .after (State.checkFlush_works _) rfl rfl rfl rfl rfl rfl
    · exact .of_same rfl rfl rfl rfl rfl rfl

theorem State.completeRetirement_works (n : Nat) (s : State) : s.Works (s.completeRetirement n) := by
  cases h : s.hst.slot? n with
  | none => unfold State.completeRetirement; rw [h]; exact .of_same rfl rfl rfl rfl rfl rfl
  | some x =>
    rcases State.completeRetirement_cases h with ⟨-, e⟩ | ⟨-, e⟩ | ⟨-, e⟩ <;> rw [e]
    · exact .after (State.checkFlush_works _) rfl rfl rfl rfl rfl rfl
    · exact .of_same rfl rfl rfl rfl rfl rfl
    · exact .of_same rfl rfl rfl rfl rfl rfl

/-- The link's way to DOWN leaves the rings, the free pool and the capacity. -/
theorem State.linkDown_move (s : State) : s.RingMove s.linkDown := by
  rcases s.linkDown_cases with ⟨-, h⟩ | ⟨-, h⟩ | ⟨-, h⟩ <;> rw [h] <;> exact .of_rings rfl rfl rfl

/-- Every event makes moves in the rings, or leaves them. -/
theorem State.Happens.moves {s u : State} (h : s.Happens u) : Relation.ReflTransGen State.RingMove s u := by
  cases h with
  | laneLockLoss lane =>
    have lost : s.RingMove { s with clp.lanes := clearLane s.clp.lanes lane } := .of_rings rfl rfl rfl
    exact .tail (.single lost) (State.linkDown_move _)
  | linkReset => exact .single s.linkDown_move
  | requestFrame up frame =>
    rcases s.receiveFrame_cases frame with ⟨-, e⟩ | ⟨r, -, ⟨-, e⟩ | ⟨-, e⟩⟩ <;> rw [e] <;>
      exact .single (.of_rings rfl rfl rfl)
  | take hq e => exact (State.takeRequest_works e).moves_after rfl rfl rfl
  | epochExpiry =>
    refine .single (.expire _ _ _ s.expireEpoch_ring ?_ ?_) <;> rw [State.expireEpoch_eq]
  | refreshExpiry => unfold State.expireRefresh; split <;> exact .single (.of_rings rfl rfl rfl)
  | readCompletion => unfold State.completeRead; split <;> exact .single (.of_rings rfl rfl rfl)
  | retirementCompletion => exact (State.completeRetirement_works _ _).moves_after rfl rfl rfl
  | responseSent r =>
    unfold State.sendResponse
    split
    · exact (State.sendClaim_works _ _).moves_after rfl rfl rfl
    · exact .single (.of_rings rfl rfl rfl)
  | _ => exact .single (.of_rings rfl rfl rfl)

/-- What every move in the rings keeps, and the states after a reset have, every run of a command keeps: settling and the
events without moves leave the rings, the free pool and the capacity. -/
theorem State.Runs.keeps_of_moves {I : State → Prop} (move : ∀ s t, I s → s.RingMove t → I t)
    (powerOn : ∀ dram pending, I { State.reset with dram := dram, pending := pending })
    {s t : State} (rise : ∀ capsel, s.rstnLow = true → I s →
      I { s with rstnLow := false, capacity := capselCapacity capsel, dcc.state := .init })
    (hs : I s) (h : s.Runs t) : I t := by
  cases h with
  | same => exact hs
  | settles h =>
    rename_i u
    have hu : I u := h.moves.rec hs (fun _ m ih => move _ _ ih m)
    have c := u.settle_chooses
    exact move _ _ hu (.of_rings c.rings c.poolFree c.capacity)
  | powerOnReset dram => exact powerOn dram _
  | rstnRise capsel h => exact rise capsel h hs
  | trainingFailure attempt _ => exact move _ _ hs (.of_rings rfl rfl rfl)
  | pulseEnd alerts => exact move _ _ hs (.of_rings rfl rfl rfl)

end Sys2Proof.Machine
end

section
/-! PROOFS. A CELL_WRITE at a ring position: the case of its tracking and the position effect, the records and the Sender
List it leaves, and what the rest of the take adds. Settles O11 and O12. -/

namespace Sys2Proof.Machine

/-! ### The case and the position effect (R20 to R24) -/

section
variable {r : Ring} {p : Nat}

theorem Ring.writeCase_adopt (h : r.occ = 0) : r.writeCase p = .adopt := if_pos h

theorem Ring.writeCase_inSequence (h : r.occ ≠ 0) (hp : p = r.fillPos) (hn : r.occ < r.active.length) :
    r.writeCase p = .inSequence := by
  unfold Ring.writeCase
  rw [if_neg h, if_pos hp, if_pos hn]

theorem Ring.writeCase_overrun (h : r.occ ≠ 0) (hp : p = r.fillPos) (hn : r.active.length ≤ r.occ) :
    r.writeCase p = .overrun := by
  unfold Ring.writeCase
  rw [if_neg h, if_pos hp, if_neg (Nat.not_lt.mpr hn)]

theorem Ring.writeCase_rewrite (h : r.occ ≠ 0) (hp : p ≠ r.fillPos)
    (hs : distance p r.drainPos r.active.length < r.occ) : r.writeCase p = .rewrite := by
  unfold Ring.writeCase Ring.inSpan
  rw [if_neg h, if_neg hp, decide_eq_true hs, if_pos rfl]

theorem Ring.writeCase_resync (h : r.occ ≠ 0) (hp : p ≠ r.fillPos)
    (hs : r.occ ≤ distance p r.drainPos r.active.length) : r.writeCase p = .resync := by
  unfold Ring.writeCase Ring.inSpan
  rw [if_neg h, if_neg hp, decide_eq_false (Nat.not_lt.mpr hs), if_neg Bool.false_ne_true]

/-- A write is accepted unless it rewrites a cell of the occupied span (R20). -/
theorem Ring.writeCase_ne_rewrite_iff : r.writeCase p ≠ .rewrite ↔
    r.occ = 0 ∨ p = r.fillPos ∨ r.occ ≤ distance p r.drainPos r.active.length := by
  rcases r.writeCase_cases p with ⟨h0, e⟩ | ⟨h0, hf, -, e⟩ | ⟨h0, hf, -, e⟩ | ⟨h0, hf, hs, e⟩ | ⟨h0, hf, hs, e⟩ <;>
    rw [e]
  · simp [h0]
  · simp [hf]
  · simp [hf]
  · simp [h0, hf, Nat.not_le.mpr hs]
  · simp [hs]

theorem Ring.writeCase_eq_resync_iff (h : r.writeCase p ≠ .rewrite) :
    r.writeCase p = .resync ↔ r.occ ≠ 0 ∧ p ≠ r.fillPos := by
  rcases r.writeCase_cases p with ⟨h0, e⟩ | ⟨h0, hf, -, e⟩ | ⟨h0, hf, -, e⟩ | ⟨-, -, -, e⟩ | ⟨h0, hf, -, e⟩
  · simp [e, h0]
  · simp [e, ← hf]
  · simp [e, ← hf]
  · exact absurd e h
  · simp [e, h0, hf]

end

/-- The position effect leaves the estimate, the geometries, the settings, the records, the Sender List, the credit, and
every counter but the four of the write cases. -/
theorem Ring.moveWrite_frame (r : Ring) (p : Nat) (case : WriteCase) :
    (r.moveWrite p case).estimate = r.estimate ∧ (r.moveWrite p case).active = r.active ∧
      (r.moveWrite p case).staged = r.staged ∧ (r.moveWrite p case).stagedSettings = r.stagedSettings ∧
      (r.moveWrite p case).records = r.records ∧ (r.moveWrite p case).senders = r.senders ∧
      (r.moveWrite p case).credit = r.credit ∧
      (r.moveWrite p case).counters = { r.counters with
        cellsIn := (r.moveWrite p case).counters.cellsIn, overruns := (r.moveWrite p case).counters.overruns
        rewrites := (r.moveWrite p case).counters.rewrites, resyncs := (r.moveWrite p case).counters.resyncs } := by
  cases case <;> exact ⟨rfl, rfl, rfl, rfl, rfl, rfl, rfl, rfl⟩

/-! ### Records and senders of an accepted write (R24, R25, R31, R32, R42, R43) -/

/-- The records that an accepted write at a position keeps: none in a resync, and otherwise those of other positions. -/
def Ring.keptAt (r : Ring) (p : Nat) : List PacketRecord :=
  r.records.filter (fun x => r.writeCase p != .resync && x.pos != p)

theorem Ring.keptAt_eq {r : Ring} {p : Nat} (h : r.writeCase p ≠ .rewrite) :
    r.keptAt p = if r.occ ≠ 0 ∧ p ≠ r.fillPos then [] else r.records.filter (fun x => x.pos != p) := by
  unfold Ring.keptAt
  split
  · rename_i hr
    rw [(Ring.writeCase_eq_resync_iff h).mpr hr]
    simp
  · rename_i hr
    have : (r.writeCase p != .resync) = true := bne_iff_ne.mpr (mt (Ring.writeCase_eq_resync_iff h).mp hr)
    simp only [this, Bool.true_and]

theorem Ring.keptAt_sublist (r : Ring) (p : Nat) : (r.keptAt p).Sublist r.records := List.filter_sublist

/-- No record of the position is kept (R25). -/
theorem Ring.keptAt_pos_ne {r : Ring} {p : Nat} {x : PacketRecord} (h : x ∈ r.keptAt p) : x.pos ≠ p := by
  have := (List.mem_filter.mp h).2
  simp only [Bool.and_eq_true, bne_iff_ne] at this
  exact this.2

/-- The records, the free pool and the counter of untracked packets after a creation is tried on a list of records: done
where pool and quota allow it, and otherwise refused (R31, R32). -/
def Creates (kept : List PacketRecord) (pool quota : Nat) (new : PacketRecord) (untracked : Nat)
    (records : List PacketRecord) (pool' untracked' : Nat) : Prop :=
  (pool ≠ 0 → kept.length < quota → records = kept ++ [new] ∧ pool' = pool - 1 ∧ untracked' = untracked) ∧
    (pool = 0 ∨ quota ≤ kept.length → records = kept ∧ pool' = pool ∧ untracked' = bump untracked 1)

theorem State.createRecord_creates (s : State) (k : Fin 64) (p : Nat) (sm : Summary) :
    Creates (s.ring k).records s.poolFree (s.ring k).settings.quota (newRecord p sm s.sje.epoch)
      (s.ring k).counters.untracked ((s.createRecord k p sm).ring k).records (s.createRecord k p sm).poolFree
      ((s.createRecord k p sm).ring k).counters.untracked := by
  rcases s.createRecord_cases k p sm with ⟨h, e⟩ | ⟨h, hq, e⟩ | ⟨h, hq, e⟩ <;> rw [e]
  · refine ⟨fun h' => absurd h h', fun _ => ?_⟩
    rw [State.raiseAll_ring, State.ring_setRing_self]
    exact ⟨rfl, rfl, rfl⟩
  · refine ⟨fun _ hl => absurd hq (by omega), fun _ => ?_⟩
    rw [State.ring_setRing_self]
    exact ⟨rfl, rfl, rfl⟩
  · refine ⟨fun _ _ => ?_, fun hx => absurd hx (by omega)⟩
    rw [State.ring_setRing_self]
    exact ⟨rfl, rfl, rfl⟩

/-- A creation adds its record and takes one from the pool, or adds none. -/
theorem Creates.cases {kept records : List PacketRecord} {pool quota untracked pool' untracked' : Nat}
    {new : PacketRecord} (h : Creates kept pool quota new untracked records pool' untracked') :
    (pool ≠ 0 ∧ records = kept ++ [new] ∧ pool' = pool - 1) ∨ (records = kept ∧ pool' = pool) := by
  by_cases hc : pool ≠ 0 ∧ kept.length < quota
  · obtain ⟨hr, hp, -⟩ := h.1 hc.1 hc.2
    exact .inl ⟨hc.1, hr, hp⟩
  · obtain ⟨hr, hp, -⟩ := h.2 (by omega)
    exact .inr ⟨hr, hp⟩

/-- What an accepted write makes of the records, the free pool, the Sender List and the counters, without a first cell and
with one. -/
structure State.Accepts (k : Fin 64) (p : Nat) (sm : Option Summary) (s t : State) : Prop where
  lost : (t.ring k).counters.lostRecords = bump (s.ring k).counters.lostRecords
    ((s.ring k).records.length - ((s.ring k).keptAt p).length)
  notFirst : sm = none → (t.ring k).records = (s.ring k).keptAt p ∧
    t.poolFree = s.poolFree + ((s.ring k).records.length - ((s.ring k).keptAt p).length) ∧
    (t.ring k).senders = (s.ring k).senders ∧ (t.ring k).counters.untracked = (s.ring k).counters.untracked ∧
    t.counters.evictions = s.counters.evictions
  creates : ∀ x, sm = some x → Creates ((s.ring k).keptAt p)
    (s.poolFree + ((s.ring k).records.length - ((s.ring k).keptAt p).length)) (s.ring k).settings.quota
    (newRecord p x s.sje.epoch) (s.ring k).counters.untracked
    (t.ring k).records t.poolFree (t.ring k).counters.untracked
  senders : ∀ x, sm = some x → (t.ring k).senders = noteSender (s.ring k).senders x.signature s.sje.epoch
  evictions : ∀ x, sm = some x → t.counters.evictions =
    if evicts (s.ring k).senders x.signature then bump s.counters.evictions 1 else s.counters.evictions

/-- The tracking of an accepted write does all of this, the position effect having left its records and senders. -/
theorem State.trackWrite_accepts {s : State} {k : Fin 64} {p : Nat} (sm : Option Summary)
    (h : (s.ring k).writeCase p ≠ .rewrite) : State.Accepts k p sm s (s.trackWrite k p sm) := by
  have e : s.trackWrite k p sm = _ := ((s.trackWrite_cases k p sm).resolve_left (fun x => h x.1)).2
  obtain ⟨f, d, q, c, hm⟩ := (s.ring k).moveWrite_keeps p ((s.ring k).writeCase p)
  have hc : c = { (s.ring k).counters with
      cellsIn := c.cellsIn, overruns := c.overruns, rewrites := c.rewrites, resyncs := c.resyncs } := by
    obtain ⟨-, -, -, -, -, -, -, moved⟩ := (s.ring k).moveWrite_frame p ((s.ring k).writeCase p)
    rw [hm] at moved
    exact moved
  have hu : c.untracked = (s.ring k).counters.untracked := by rw [hc]
  have hl : c.lostRecords = (s.ring k).counters.lostRecords := by rw [hc]
  rw [e, hm]
  unfold State.acceptWrite
  cases sm with
  | none =>
    dsimp only
    refine ⟨?_, fun _ => ⟨?_, ?_, ?_, ?_, rfl⟩, nofun, nofun, nofun⟩ <;>
      simp only [State.loseRecords_ring, State.loseRecords_poolFree, State.ring_setRing_self, State.setRing_poolFree, hl,
        hu] <;> rfl
  | some sm =>
    dsimp only
    refine ⟨?_, nofun, ?_, ?_, ?_⟩
    · rw [State.updateSenders_ring, State.createRecord_ring]
      simp only [State.loseRecords_ring, State.ring_setRing_self, hl]
      rfl
    · rintro x ⟨⟩
      rw [State.updateSenders_ring, State.updateSenders_poolFree]
      have := State.createRecord_creates ((s.setRing k { s.ring k with
        fillPos := f, drainPos := d, occ := q, counters := c }).loseRecords k
          (fun rec => (s.ring k).writeCase p != .resync && rec.pos != p)) k p sm
      simp only [State.loseRecords_ring, State.loseRecords_poolFree, State.ring_setRing_self, State.setRing_poolFree, hu,
        State.loseRecords_sje, State.setRing_sje] at this
      exact this
    · rintro x ⟨⟩
      rw [State.updateSenders_ring, State.createRecord_ring, State.loseRecords_ring, State.ring_setRing_self]
      simp only [(State.createRecord_keeps _ k p sm).sje]
      rfl
    · rintro x ⟨⟩
      unfold State.updateSenders
      dsimp only [State.setRing_counters]
      rw [State.createRecord_counters, State.createRecord_ring, State.loseRecords_ring, State.ring_setRing_self]
      rfl

/-! ### The rest of the take (R100 to R104, R148) -/

/-- What the rest of a CELL_WRITE at a position of ring `k` leaves of the state that its tracking has made. -/
structure State.WriteEnds (k : Fin 64) (t u : State) : Prop where
  rstnLow : u.rstnLow = t.rstnLow
  capacity : u.capacity = t.capacity
  clp : u.clp = t.clp
  rq : u.rfe.rq = t.rfe.rq
  ready : u.rfe.ready = t.rfe.ready
  tags : u.rfe.tags = t.rfe.tags
  poolFree : u.poolFree = t.poolFree
  sje : u.sje = t.sje
  fanInWindow : u.fanInWindow = t.fanInWindow
  swu : u.swu = t.swu
  hst : u.hst = { t.hst with slots := u.hst.slots }
  dcc : u.dcc = { t.dcc with writeQ := u.dcc.writeQ, nextSeq := u.dcc.nextSeq }
  dram : u.dram = t.dram
  pending : u.pending = t.pending
  counters : u.counters = { t.counters with overwrites := u.counters.overwrites }
  others : ∀ j, j ≠ k → u.ring j = t.ring j
  ring : u.ring k = { t.ring k with counters := { (t.ring k).counters with
    admitted := (u.ring k).counters.admitted, bypassed := (u.ring k).counters.bypassed } }

theorem State.overwrite_hst (s : State) (x : Slot) (data : List Byte) :
    (s.overwrite x data).hst = { s.hst with slots := (s.overwrite x data).hst.slots } := by
  cases h : x.state <;> simp only [State.overwrite, h] <;> rfl

/-- A bypassed write: counted for its ring and queued (R102). -/
def State.bypassed (k : Fin 64) (cell : Nat) (data : List Byte) (t : State) : State :=
  State.setRing { t with
    dcc.writeQ := t.dcc.writeQ ++ [{ cell := cell, payload := .full data, seq := t.dcc.nextSeq }]
    dcc.nextSeq := t.dcc.nextSeq + 1 } k
      { t.ring k with counters.bypassed := bump (t.ring k).counters.bypassed 1 }

section
variable {s u : State} {k : Fin 64} {p cell : Nat} {data : List Byte}

/-- The three outcomes of a CELL_WRITE at a ring position: an overwrite, an admission, a bypass (R100 to R104). -/
theorem State.takePositionWrite_cases (e : s.takePositionWrite k p cell data = some u) :
    (∃ x, s.hst.lookup? cell = some x ∧ u = (s.trackWrite k p (summaryOf data)).overwrite x data) ∨
    (s.hst.lookup? cell = none ∧ s.WouldAdmit k p data ∧
      ∃ n, s.hst.freeSlot? = some n ∧ u = (s.trackWrite k p (summaryOf data)).admitCell k n cell data) ∨
    (s.hst.lookup? cell = none ∧ ¬s.WouldAdmit k p data ∧ s.dcc.writeQ.length < 32 ∧
      u = (s.trackWrite k p (summaryOf data)).bypassed k cell data) := by
  have keeps := s.trackWrite_keeps k p (summaryOf data)
  unfold State.takePositionWrite at e
  dsimp only at e
  rw [keeps.hst] at e
  split at e
  · rename_i x hx
    cases e
    exact .inl ⟨x, hx, rfl⟩
  · rename_i hx
    have admits := s.admits_trackWrite_iff k p data (summaryOf data)
    rcases State.admitOrBypass_cases _ k cell data e with ⟨n, ha, hn, rfl⟩ | ⟨ha, hq, rfl⟩
    · exact .inr (.inl ⟨hx, admits.mp ha, n, by rw [← keeps.hst]; exact hn, rfl⟩)
    · refine .inr (.inr ⟨hx, fun hw => ?_, by rw [← keeps.dcc]; exact hq, rfl⟩)
      rw [admits.mpr hw] at ha
      exact absurd ha (by decide)

theorem State.takePositionWrite_ends (e : s.takePositionWrite k p cell data = some u) :
    State.WriteEnds k (s.trackWrite k p (summaryOf data)) u := by
  rcases State.takePositionWrite_cases e with ⟨x, -, rfl⟩ | ⟨-, -, n, -, rfl⟩ | ⟨-, -, -, rfl⟩
  · exact ⟨rfl, rfl, rfl, rfl, rfl, rfl, rfl, rfl, rfl, rfl, State.overwrite_hst _ x data, rfl, rfl, rfl, rfl,
      fun _ _ => rfl, rfl⟩
  · refine ⟨by simp, by simp, by simp, by simp, by simp, by simp, by simp, by simp, by simp, by simp, by simp; rfl,
      by simp, by simp, by simp, by simp, fun j h => State.admitCell_ring_of_ne _ k n cell data h, ?_⟩
    rw [State.admitCell_ring_self]
  · refine ⟨rfl, rfl, rfl, rfl, rfl, rfl, rfl, rfl, rfl, rfl, rfl, rfl, rfl, rfl, rfl,
      fun j h => State.ring_setRing_of_ne _ _ h, ?_⟩
    unfold State.bypassed
    rw [State.ring_setRing_self]

/-- The rest of the take leaves what the tracking of an accepted write has done. -/
theorem State.Accepts.ends {t : State} {sm : Option Summary} (h : State.Accepts k p sm s t)
    (ends : State.WriteEnds k t u) : State.Accepts k p sm s u := by
  have evictions : u.counters.evictions = t.counters.evictions := by rw [ends.counters]
  constructor
  · rw [ends.ring]; exact h.lost
  · rw [ends.ring, ends.poolFree, evictions]; exact h.notFirst
  · rw [ends.ring, ends.poolFree]; exact h.creates
  · rw [ends.ring]; exact h.senders
  · rw [evictions]; exact h.evictions

/-- An unheld cell leaves the response entries and the overwrite counter. -/
theorem State.takePositionWrite_unheld (e : s.takePositionWrite k p cell data = some u)
    (hx : s.hst.lookup? cell = none) : u.rfe.responses = s.rfe.responses ∧
      u.counters.overwrites = s.counters.overwrites := by
  have keeps := s.trackWrite_keeps k p (summaryOf data)
  have counters := s.trackWrite_counters k p (summaryOf data)
  rcases State.takePositionWrite_cases e with ⟨x, hs, -⟩ | ⟨-, -, n, -, rfl⟩ | ⟨-, -, -, rfl⟩
  · rw [hx] at hs; exact absurd hs nofun
  · rw [State.admitCell_rfe, State.admitCell_counters, keeps.rfe, counters]; exact ⟨rfl, rfl⟩
  · change (State.trackWrite _ _ _ s).rfe.responses = _ ∧ (State.trackWrite _ _ _ s).counters.overwrites = _
    rw [keeps.rfe, counters]; exact ⟨rfl, rfl⟩

/-- A held cell is neither admitted nor bypassed. -/
theorem State.takePositionWrite_held (e : s.takePositionWrite k p cell data = some u)
    (hx : s.hst.lookup? cell ≠ none) : u.ring k = (s.trackWrite k p (summaryOf data)).ring k := by
  rcases State.takePositionWrite_cases e with ⟨x, -, rfl⟩ | ⟨h, -⟩ | ⟨h, -⟩
  · rfl
  · exact absurd h hx
  · exact absurd h hx

/-- STORE_MUST is raised where an admission brings fill up to the high mark in use (R111). -/
theorem State.takePositionWrite_alerts (e : s.takePositionWrite k p cell data = some u) :
    (s.hst.lookup? cell = none ∧ s.WouldAdmit k p data ∧ s.hst.slots.length + 1 = max s.hst.highMark s.hst.lowMark →
      u.alerts = (s.trackWrite k p (summaryOf data)).alerts.map (AlertLine.raise .storeMust)) ∧
    (¬(s.hst.lookup? cell = none ∧ s.WouldAdmit k p data ∧
        s.hst.slots.length + 1 = max s.hst.highMark s.hst.lowMark) →
      u.alerts = (s.trackWrite k p (summaryOf data)).alerts) := by
  rcases State.takePositionWrite_cases e with ⟨x, hx, rfl⟩ | ⟨hx, hw, n, -, rfl⟩ | ⟨-, hw, -, rfl⟩
  · exact ⟨fun ⟨unheld, _⟩ => absurd (hx.symm.trans unheld) nofun, fun _ => rfl⟩
  · rw [State.admitCell_alerts, (s.trackWrite_keeps k p (summaryOf data)).hst]
    have fill : (s.hst.fill < s.hst.highInUse ∧ s.hst.highInUse ≤ s.hst.fill + 1) ↔
        s.hst.slots.length + 1 = max s.hst.highMark s.hst.lowMark := by
      unfold HoldStore.fill HoldStore.highInUse
      omega
    exact ⟨fun ⟨_, _, full⟩ => if_pos (fill.mpr full), fun h => if_neg (fun hf => h ⟨hx, hw, fill.mp hf⟩)⟩
  · exact ⟨fun ⟨_, admitted, _⟩ => absurd admitted hw, fun _ => rfl⟩

end

/-- What such a take leaves of the part (`TakeKeeps`), from the state before its head left the queue. -/
theorem State.WriteEnds.takeKeeps {s u : State} {rest : List Request} {k : Fin 64} {p : Nat} {sm : Option Summary}
    (ends : State.WriteEnds k ((s.popHead rest).trackWrite k p sm) u) : s.TakeKeeps rest u := by
  have keeps := (s.popHead rest).trackWrite_keeps k p sm
  have hst := ends.hst
  have dcc := ends.dcc
  rw [keeps.hst] at hst
  rw [keeps.dcc] at dcc
  have readQ : u.dcc.readQ = s.dcc.readQ := by rw [dcc]; rfl
  exact ⟨ends.rstnLow.trans keeps.rstnLow, ends.capacity.trans keeps.capacity, ends.sje.trans keeps.sje,
    ends.fanInWindow.trans keeps.fanInWindow, ends.swu.trans keeps.swu, ends.dram.trans keeps.dram,
    ends.pending.trans keeps.pending, ends.rq.trans (congrArg _ keeps.rfe), ends.clp.trans keeps.clp,
    by rw [readQ]; exact dcc, hst⟩

/-- Of the device counters, such a take moves those of evictions and overwrites alone. -/
theorem State.WriteEnds.counters_eq {s u : State} {k : Fin 64} {p : Nat} {sm : Option Summary}
    (ends : State.WriteEnds k (s.trackWrite k p sm) u) : u.counters =
      { s.counters with evictions := u.counters.evictions, overwrites := u.counters.overwrites } := by
  have evictions : u.counters.evictions = _ := congrArg DeviceCounters.evictions ends.counters
  have counters := ends.counters
  rw [s.trackWrite_counters] at counters
  rw [evictions]
  exact counters

/-- Where its need is met, the take of a CELL_WRITE at a ring position is done (R144, R148). -/
theorem State.HeadWritesPosition.takes {s : State} {cell : Nat} {data : List Byte} {rest : List Request} {k : Fin 64}
    {p : Nat} (h : s.HeadWritesPosition cell data rest k p) :
    ∃ u, exec .cellWrite s = .next u.settle ∧ (s.popHead rest).takePositionWrite k p cell data = some u := by
  obtain ⟨head, buffer, position, need⟩ := h
  have take : (s.popHead rest).takeCellWrite cell data = (s.popHead rest).takePositionWrite k p cell data := by
    unfold State.takeCellWrite
    rw [State.popHead_cellClass, buffer, State.popHead_ringClass, position]
  have keeps := (s.popHead rest).trackWrite_keeps k p (summaryOf data)
  obtain ⟨u, hu⟩ : ∃ u, (s.popHead rest).takePositionWrite k p cell data = some u := by
    unfold State.takePositionWrite
    dsimp only
    rw [keeps.hst, State.popHead_hst]
    cases hx : s.hst.lookup? cell with
    | some x => exact ⟨_, rfl⟩
    | none =>
      dsimp only
      unfold State.admitOrBypass
      dsimp only
      split
      · exact ⟨_, rfl⟩
      · rename_i hne
        refine ⟨_, State.queueWrite_eq_some.mpr ⟨?_, rfl⟩⟩
        rw [State.setRing_dcc, keeps.dcc, State.popHead_dcc]
        rcases need with held | admitted | room
        · exact absurd hx held
        · have ha := ((s.popHead rest).admits_trackWrite_iff k p data (summaryOf data)).mpr admitted
          obtain ⟨-, -, -, -, -, free, -⟩ := admitted
          obtain ⟨n, hn⟩ := Option.isSome_iff_exists.mp (HoldStore.freeSlot?_isSome_iff.mpr free)
          rw [← State.popHead_hst s rest, ← keeps.hst] at hn
          exact absurd hn (hne n ha)
        · exact room
  refine ⟨u, ?_, hu⟩
  rw [exec_cellWrite head, take, hu]
  rfl

/-! ### Alert lines -/

/-- A line that an event may have reached keeps its settings and the flags of the other events (R174). -/
theorem AlertLine.raise_frame {lines lines' : Vector AlertLine 4} {e : Event}
    (h : lines' = lines.map (AlertLine.raise e) ∨ lines' = lines) (l : Fin 4) :
    lines'[l].mode = lines[l].mode ∧ lines'[l].width = lines[l].width ∧ lines'[l].mask = lines[l].mask ∧
      ∀ i, i ≠ e.number → lines'[l].flags.getLsbD i = lines[l].flags.getLsbD i := by
  rcases h with rfl | rfl
  · simp only [Fin.getElem_fin, Vector.getElem_map, AlertLine.raise_mode, AlertLine.raise_width, AlertLine.raise_mask,
      AlertLine.getLsbD_raise, true_and]
    intro i hi
    simp [hi]
  · exact ⟨rfl, rfl, rfl, fun _ _ => rfl⟩

/-! ### The statements -/

/-- A cell begins a packet when its kind is FIRST or ONLY (R3). -/
theorem summaryOf_eq (data : List Byte) : summaryOf data =
    if (byteAt data 0).toNat % 4 = 0 ∨ (byteAt data 0).toNat % 4 = 3 then some (parse data) else none := by
  have hlt : (byteAt data 0).toNat % 4 < 4 := Nat.mod_lt _ (by decide)
  unfold summaryOf prefixKind
  match (byteAt data 0).toNat % 4, hlt with
  | 0, _ | 1, _ | 2, _ | 3, _ => rfl

theorem summaryOf_ne_none_iff {data : List Byte} : summaryOf data ≠ none ↔
    (byteAt data 0).toNat % 4 = 0 ∨ (byteAt data 0).toNat % 4 = 3 := by
  rw [summaryOf_eq]
  split <;> simp [*]

/-- A rewrite leaves everything but its ring's counter. -/
theorem State.trackWrite_rewrite {s : State} {k : Fin 64} {p : Nat} (sm : Option Summary)
    (h : (s.ring k).writeCase p = .rewrite) :
    s.trackWrite k p sm = s.setRing k ((s.ring k).moveWrite p .rewrite) :=
  ((s.trackWrite_cases k p sm).resolve_right (fun x => x.1 h)).2

/-- The tracking raises POOL_EMPTY where an accepted first cell finds the pool empty (R32). -/
theorem State.trackWrite_raises_poolEmpty {s : State} {k : Fin 64} {p : Nat} {data : List Byte} {kept : List PacketRecord}
    (hk : (s.ring k).writeCase p ≠ .rewrite → kept = (s.ring k).keptAt p) {empty : Prop}
    (he : empty ↔ ((s.ring k).writeCase p ≠ .rewrite ∧ summaryOf data ≠ none ∧
      s.poolFree + ((s.ring k).records.length - kept.length) = 0)) :
    (empty → (s.trackWrite k p (summaryOf data)).alerts = s.alerts.map (AlertLine.raise .poolEmpty)) ∧
      (¬empty → (s.trackWrite k p (summaryOf data)).alerts = s.alerts) := by
  rw [s.trackWrite_alerts_eq]
  constructor
  · intro h
    obtain ⟨accepted, first, pool⟩ := he.mp h
    rw [hk accepted] at pool
    exact if_pos ⟨accepted, first, pool⟩
  · refine fun h => if_neg (fun ⟨accepted, first, pool⟩ => h (he.mpr ⟨accepted, first, ?_⟩))
    rw [hk accepted]
    exact pool

/-- Ring `k` after the take: the position effect of its case, and besides only the records, the Sender List, and the
counters of lost records, untracked packets, admissions and bypasses. -/
theorem State.takePositionWrite_ring {s u : State} {k : Fin 64} {p cell : Nat} {data : List Byte}
    (e : s.takePositionWrite k p cell data = some u) : u.ring k =
      { (s.ring k).moveWrite p ((s.ring k).writeCase p) with
        records := (u.ring k).records
        senders := (u.ring k).senders
        counters := { ((s.ring k).moveWrite p ((s.ring k).writeCase p)).counters with
          untracked := (u.ring k).counters.untracked, lostRecords := (u.ring k).counters.lostRecords
          admitted := (u.ring k).counters.admitted, bypassed := (u.ring k).counters.bypassed } } := by
  obtain ⟨records, senders, untracked, lost, ht⟩ := s.trackWrite_ring k p (summaryOf data)
  have hu := (State.takePositionWrite_ends e).ring
  rw [ht] at hu
  rw [hu]

/-- Settles O11: the take is an overwrite, an admission or a bypass of the state that the tracking makes, and the tracking
makes the position effect of its case. -/
theorem positionWriteMovesTheFill : Obligations.PositionWriteMovesTheFill := by
  intro s cell data rest k p h
  obtain ⟨u, hexec, take⟩ := h.takes
  have ends := State.takePositionWrite_ends take
  have keeps := (s.popHead rest).trackWrite_keeps k p (summaryOf data)
  obtain ⟨must, notMust⟩ := State.takePositionWrite_alerts take
  have ring := State.takePositionWrite_ring take
  obtain ⟨estimate, active, staged, stagedSettings, -, -, credit, moved⟩ :=
    (s.ring k).moveWrite_frame p ((s.ring k).writeCase p)
  have track : (u.ring k).track = ((s.ring k).moveWrite p ((s.ring k).writeCase p)).track := by rw [ring]; rfl
  have writes : (u.ring k).counters.writes = ((s.ring k).moveWrite p ((s.ring k).writeCase p)).counters.writes := by
    rw [ring]; rfl
  refine ⟨u, hexec, ends.takeKeeps, fun j hj => (ends.others j hj).trans (keeps.ring j hj),
    by rw [ends.dcc, keeps.dcc]; rfl, by rw [ends.ready, keeps.rfe]; rfl, by rw [ends.tags, keeps.rfe]; rfl,
    ends.counters_eq, State.takePositionWrite_unheld (s := s.popHead rest) take, fun l => ?_, ?_⟩
  · have raised := (em _).imp must notMust
    obtain ⟨mode, width, mask, flags⟩ := AlertLine.raise_frame raised l
    obtain ⟨mode', width', mask', flags'⟩ :=
      AlertLine.raise_frame ((s.popHead rest).trackWrite_alerts k p (summaryOf data)).symm l
    exact ⟨mode.trans mode', width.trans width', mask.trans mask', fun i h3 h4 => (flags i h3).trans (flags' i h4)⟩
  intro r v c n away kept empty _
  have hempty := (s.popHead rest).trackWrite_raises_poolEmpty (k := k) (p := p) (data := data) (kept := kept)
    (fun h => (Ring.keptAt_eq h).symm) (empty := empty)
    (and_congr Ring.writeCase_ne_rewrite_iff.symm (and_congr summaryOf_ne_none_iff.symm Iff.rfl))
  refine ⟨⟨_, hempty.1, hempty.2, must, notMust⟩, fun held => ?_, ?_, ?_, ?_, ?_, ?_, ?_, ?_, ?_, fun h0 => ?_,
    fun h0 hp hn => ?_, fun h0 hp hn => ?_, fun h0 hp hs => ?_, fun h0 hp hs => ?_⟩
  · obtain ⟨_, _, _, _, ht⟩ := (s.popHead rest).trackWrite_ring k p (summaryOf data)
    have hv : v = _ := (State.takePositionWrite_held take held).trans ht
    exact ⟨(congrArg (fun v => v.counters.admitted) hv).trans (congrArg RingCounters.admitted moved),
      (congrArg (fun v => v.counters.bypassed) hv).trans (congrArg RingCounters.bypassed moved)⟩
  · exact (congrArg Ring.estimate ring).trans estimate
  · exact (congrArg Ring.active ring).trans active
  · exact (congrArg Ring.staged ring).trans staged
  · exact (congrArg Ring.stagedSettings ring).trans stagedSettings
  · exact (congrArg Ring.credit ring).trans credit
  · exact (congrArg (fun v => v.counters.readCases) ring).trans (congrArg RingCounters.readCases moved)
  · exact (congrArg (fun v => v.counters.marks) ring).trans (congrArg RingCounters.marks moved)
  · exact (congrArg (fun v => v.counters.skippedUnread) ring).trans (congrArg RingCounters.skippedUnread moved)
  · rw [track, writes, Ring.writeCase_adopt h0]; exact ⟨rfl, rfl⟩
  · rw [track, writes, Ring.writeCase_inSequence h0 hp hn]; exact ⟨rfl, rfl⟩
  · rw [track, writes, Ring.writeCase_overrun h0 hp hn]; exact ⟨rfl, rfl⟩
  · have case := Ring.writeCase_rewrite h0 hp hs
    have rewritten := State.trackWrite_rewrite (s := s.popHead rest) (summaryOf data) case
    have hv := ends.ring
    have evictions := congrArg DeviceCounters.evictions ends.counters
    rw [rewritten, State.ring_setRing_self] at hv
    rw [rewritten] at must notMust evictions
    rw [track, writes, case]
    refine ⟨rfl, rfl, (congrArg Ring.records hv).trans rfl, (congrArg Ring.senders hv).trans rfl,
      congrArg (fun v => v.counters.lostRecords) hv, congrArg (fun v => v.counters.untracked) hv,
      ends.poolFree.trans ((congrArg State.poolFree rewritten).trans rfl), evictions, fun l => ?_⟩
    obtain ⟨-, -, -, flags⟩ := AlertLine.raise_frame ((em _).imp must notMust) l
    exact flags 4 (by decide)
  · rw [track, writes, Ring.writeCase_resync h0 hp hs]; exact ⟨rfl, rfl⟩

/-! ### The Sender List of an accepted first cell (R42, R43) -/

/-- A signature that is not listed joins at the front, and the back entry of a full list is evicted. -/
theorem noteSender_new {senders : List Sender} {sig : Signature} (now : Epoch) (h : ∀ e ∈ senders, e.signature ≠ sig) :
    noteSender senders sig now = { signature := sig, lastSeen := now, packets := 1 } ::
        (if senders.length < 16 then senders else senders.dropLast) ∧
      (evicts senders sig = true ↔ ¬senders.length < 16) := by
  have hf : senders.find? (fun e => e.signature == sig) = none := by simpa using h
  have hall : senders.all (fun e => e.signature != sig) = true := by simpa using h
  constructor
  · unfold noteSender; rw [hf]
  · unfold evicts; simp [hall]

/-- A listed signature moves to the front with one packet more, and nothing is evicted. -/
theorem noteSender_listed {senders front back : List Sender} {e : Sender} {sig : Signature} (now : Epoch)
    (nodup : (senders.map (fun e => e.signature)).Nodup) (hs : senders = front ++ e :: back) (he : e.signature = sig) :
    noteSender senders sig now = { signature := sig, lastSeen := now, packets := min 65535 (e.packets + 1) } ::
        (front ++ back) ∧ evicts senders sig = false := by
  subst hs he
  rw [List.map_append, List.map_cons, List.nodup_middle, List.nodup_cons, ← List.map_append] at nodup
  have hne : ∀ x ∈ front ++ back, x.signature ≠ e.signature :=
    fun x hx hxe => nodup.1 (List.mem_map.mpr ⟨x, hx, hxe⟩)
  have hfront : ∀ x ∈ front, x.signature ≠ e.signature := fun x hx => hne x (List.mem_append_left _ hx)
  have hfind : (front ++ e :: back).find? (fun x => x.signature == e.signature) = some e := by
    rw [List.find?_append, List.find?_eq_none.mpr (by simpa using hfront)]
    simp
  have hrest : (front ++ e :: back).filter (fun x => x.signature != e.signature) = front ++ back := by
    rw [List.filter_append, List.filter_cons_of_neg (by simp), ← List.filter_append, List.filter_eq_self]
    simpa using hne
  constructor
  · unfold noteSender; rw [hfind, hrest]
  · unfold evicts; simp

/-- Settles O12: the rest of the take leaves the records, the pool, the Sender List and the evictions as the tracking of
the accepted write has made them. -/
theorem acceptedWriteUpdatesRecordsAndSenders : Obligations.AcceptedWriteUpdatesRecordsAndSenders := by
  intro s cell data rest k p h ⟨_, nodup, _⟩ accepted
  obtain ⟨u, hexec, take⟩ := h.takes
  have ends := State.takePositionWrite_ends take
  have notRewrite : (s.ring k).writeCase p ≠ .rewrite := Ring.writeCase_ne_rewrite_iff.mpr accepted
  have accepts := (State.trackWrite_accepts (s := s.popHead rest) (summaryOf data) notRewrite).ends ends
  refine ⟨u, hexec, ?_⟩
  intro r v kept lost sm copies first
  have hkept : (s.ring k).keptAt p = kept := Ring.keptAt_eq notRewrite
  have hsome (f : first) : summaryOf data = some sm := (summaryOf_eq data).trans (if_pos f)
  have hlost := accepts.lost
  have hcreates (f : first) := accepts.creates sm (hsome f)
  have hnone (f : ¬first) := accepts.notFirst ((summaryOf_eq data).trans (if_neg f))
  change _ = bump _ (_ - ((s.ring k).keptAt p).length) at hlost
  change ∀ f, Creates ((s.ring k).keptAt p) (_ + (_ - ((s.ring k).keptAt p).length)) _ _ _ _ _ _ at hcreates
  change ∀ f, _ = (s.ring k).keptAt p ∧ _ = _ + (_ - ((s.ring k).keptAt p).length) ∧ _ at hnone
  rw [hkept] at hlost hcreates hnone
  have flags (l : Fin 4) : u.alerts[l].flags.getLsbD 4 =
      ((s.popHead rest).trackWrite k p (summaryOf data)).alerts[l].flags.getLsbD 4 := by
    obtain ⟨must, notMust⟩ := State.takePositionWrite_alerts take
    obtain ⟨-, -, -, flags⟩ := AlertLine.raise_frame ((em _).imp must notMust) l
    exact flags 4 (by decide)
  obtain ⟨raised, notRaised⟩ := (s.popHead rest).trackWrite_raises_poolEmpty (k := k) (p := p) (data := data)
    (kept := kept) (fun _ => hkept.symm) (empty := first ∧ s.poolFree + lost = 0)
    ⟨fun ⟨f, pool⟩ => ⟨notRewrite, summaryOf_ne_none_iff.mpr f, pool⟩,
      fun ⟨_, f, pool⟩ => ⟨summaryOf_ne_none_iff.mp f, pool⟩⟩
  refine ⟨hlost, hnone, fun f => (hcreates f).1, fun f => (hcreates f).2, fun f pool l => ?_, fun hn l => ?_,
    fun f fresh => ?_, fun front back e f hs he => ?_⟩
  · rw [flags, raised ⟨f, pool⟩, Fin.getElem_fin, Vector.getElem_map, AlertLine.getLsbD_raise]
    exact Bool.or_true _
  · rw [flags, notRaised (fun ⟨f, pool⟩ => hn.elim (· f) (· pool))]
    rfl
  · obtain ⟨list, full⟩ := noteSender_new s.sje.epoch fresh
    refine ⟨(accepts.senders sm (hsome f)).trans list, (accepts.evictions sm (hsome f)).trans ?_⟩
    by_cases room : r.senders.length < 16
    · rw [if_pos room]; exact if_neg (fun x => full.mp x room)
    · rw [if_neg room]; exact if_pos (full.mpr room)
  · obtain ⟨list, stays⟩ := noteSender_listed s.sje.epoch nodup hs he
    exact ⟨(accepts.senders sm (hsome f)).trans list,
      (accepts.evictions sm (hsome f)).trans (if_neg (by rw [Bool.not_eq_true]; exact stays))⟩

end Sys2Proof.Machine
end

section
/-! PROOFS. A CELL_READ at a ring position: the position effect of its case, the header lookup with its one decision, and
what the rest of the take adds. Settles O17 and O18. -/

namespace Sys2Proof.Machine

/-! ### The case and the position effect (R26 to R29) -/

section
variable {r : Ring} {p : Nat}

theorem Ring.readCase_advance (h : r.occ ≠ 0) (hp : p = r.drainPos) : r.readCase p = .advance := by
  unfold Ring.readCase
  rw [if_neg h, if_pos hp]

theorem Ring.readCase_skipAhead (h : r.occ ≠ 0) (hp : p ≠ r.drainPos)
    (hs : distance p r.drainPos r.active.length < r.occ) : r.readCase p = .skipAhead := by
  unfold Ring.readCase Ring.inSpan
  rw [if_neg h, if_neg hp, decide_eq_true hs, if_pos rfl]

theorem Ring.readCase_stray
    (h : r.occ = 0 ∨ p ≠ r.drainPos ∧ r.occ ≤ distance p r.drainPos r.active.length) : r.readCase p = .stray := by
  unfold Ring.readCase Ring.inSpan
  rcases h with h | ⟨hp, hs⟩
  · rw [if_pos h]
  · split
    · rfl
    · rw [decide_eq_false (Nat.not_lt.mpr hs), if_neg Bool.false_ne_true]

end

/-- The position effect leaves everything but the drain position, the occupancy, the read count and the three counters of
the read cases. -/
theorem Ring.moveRead_eq (r : Ring) (p : Nat) (case : ReadCase) : r.moveRead p case =
    { r with
      drainPos := (r.moveRead p case).drainPos, occ := (r.moveRead p case).occ, reads := (r.moveRead p case).reads
      counters := { r.counters with
        cellsOut := (r.moveRead p case).counters.cellsOut
        skippedCells := (r.moveRead p case).counters.skippedCells
        strayReads := (r.moveRead p case).counters.strayReads } } := by
  cases case <;> rfl

/-! ### The header lookup (R33, R34, R78) -/

/-- The marking counters a decision leaves move none of the others. -/
theorem RingCounters.decided_eq (c : RingCounters) (kind : MarkKind) (d : Decision) : c.decided kind d =
    { c with
      marked := (c.decided kind d).marked, ceAlready := (c.decided kind d).ceAlready
      unmarkable := (c.decided kind d).unmarkable, exempt := (c.decided kind d).exempt } := by
  cases d with
  | pass => unfold RingCounters.decided; dsimp only; split <;> rfl
  | _ => rfl

/-- The Mark Unit changes of a ring the credit and its own four counters (R78, R87). -/
theorem Ring.markRead_eq (r : Ring) (x : PacketRecord) (q : Nat) : (r.markRead x q).1 =
    { r with
      credit := (r.markRead x q).1.credit
      counters := { r.counters with
        marked := (r.markRead x q).1.counters.marked, ceAlready := (r.markRead x q).1.counters.ceAlready
        unmarkable := (r.markRead x q).1.counters.unmarkable, exempt := (r.markRead x q).1.counters.exempt } } := by
  unfold Ring.markRead
  split
  · dsimp only; rw [← RingCounters.decided_eq]
  · rfl

/-- What the header lookup of a read at position `p` does to ring `k`: it leaves all but the records, the credit, and the
counters of the Mark Unit and of packets skipped unread. -/
theorem State.headerRead_ring (s : State) (k : Fin 64) (p : Nat) : ((s.headerRead k p).1.ring k) =
    { s.ring k with
      records := ((s.headerRead k p).1.ring k).records
      credit := ((s.headerRead k p).1.ring k).credit
      counters := { (s.ring k).counters with
        marked := ((s.headerRead k p).1.ring k).counters.marked
        ceAlready := ((s.headerRead k p).1.ring k).counters.ceAlready
        unmarkable := ((s.headerRead k p).1.ring k).counters.unmarkable
        exempt := ((s.headerRead k p).1.ring k).counters.exempt
        skippedUnread := ((s.headerRead k p).1.ring k).counters.skippedUnread } } := by
  rcases s.headerRead_cases k p with ⟨-, h⟩ | ⟨older, x, newer, -, h⟩ <;> rw [h]
  dsimp only
  rw [State.ring_setRing_self, Ring.markRead_eq]

/-- Ring `k` after the tracking of a read: the position effect of its case on what the header lookup leaves. -/
theorem State.trackRead_ring (s : State) (k : Fin 64) (p : Nat) : (s.trackRead k p).1.ring k =
    ((s.headerRead k p).1.ring k).moveRead p ((s.ring k).readCase p) := State.ring_setRing_self _ k _

/-- The position effect on what the header lookup leaves is the one on the ring before. -/
theorem State.trackRead_track (s : State) (k : Fin 64) (p : Nat) :
    ((s.trackRead k p).1.ring k).track = ((s.ring k).moveRead p ((s.ring k).readCase p)).track ∧
      ((s.trackRead k p).1.ring k).counters.readCases =
        ((s.ring k).moveRead p ((s.ring k).readCase p)).counters.readCases := by
  rw [State.trackRead_ring, State.headerRead_ring]
  cases (s.ring k).readCase p <;> exact ⟨rfl, rfl⟩

/-- What the tracking of a read leaves of its ring. -/
theorem State.trackRead_frame (s : State) (k : Fin 64) (p : Nat) :
    ((s.trackRead k p).1.ring k).estimate = (s.ring k).estimate ∧
      ((s.trackRead k p).1.ring k).active = (s.ring k).active ∧
      ((s.trackRead k p).1.ring k).staged = (s.ring k).staged ∧
      ((s.trackRead k p).1.ring k).stagedSettings = (s.ring k).stagedSettings ∧
      ((s.trackRead k p).1.ring k).senders = (s.ring k).senders ∧
      ((s.trackRead k p).1.ring k).counters.writes = (s.ring k).counters.writes ∧
      ((s.trackRead k p).1.ring k).counters.untracked = (s.ring k).counters.untracked ∧
      ((s.trackRead k p).1.ring k).counters.lostRecords = (s.ring k).counters.lostRecords ∧
      ((s.trackRead k p).1.ring k).counters.admitted = (s.ring k).counters.admitted ∧
      ((s.trackRead k p).1.ring k).counters.bypassed = (s.ring k).counters.bypassed := by
  rw [State.trackRead_ring, Ring.moveRead_eq, State.headerRead_ring]
  exact ⟨rfl, rfl, rfl, rfl, rfl, rfl, rfl, rfl, rfl, rfl⟩

/-- The position effect leaves what the header lookup has made of the records, the credit and the Mark Unit's counters. -/
theorem State.trackRead_lookup (s : State) (k : Fin 64) (p : Nat) :
    ((s.trackRead k p).1.ring k).records = ((s.headerRead k p).1.ring k).records ∧
      (s.trackRead k p).1.poolFree = (s.headerRead k p).1.poolFree ∧
      ((s.trackRead k p).1.ring k).credit = ((s.headerRead k p).1.ring k).credit ∧
      ((s.trackRead k p).1.ring k).counters.marks = ((s.headerRead k p).1.ring k).counters.marks ∧
      ((s.trackRead k p).1.ring k).counters.skippedUnread = ((s.headerRead k p).1.ring k).counters.skippedUnread := by
  rw [State.trackRead_ring, Ring.moveRead_eq]
  exact ⟨rfl, rfl, rfl, rfl, rfl⟩

/-! ### The rest of the take (R106, R107, R125, R149) -/

/-- What the rest of a CELL_READ at a position leaves of the state that its tracking has made, and the response entry that
it adds. -/
structure State.ReadEnds (t : State) (tag : Tag) (h : HeaderRead) (e : Response) (u : State) : Prop where
  rstnLow : u.rstnLow = t.rstnLow
  capacity : u.capacity = t.capacity
  clp : u.clp = t.clp
  rq : u.rfe.rq = t.rfe.rq
  responses : u.rfe.responses = t.rfe.responses ++ [e]
  rings : u.rings = t.rings
  poolFree : u.poolFree = t.poolFree
  sje : u.sje = t.sje
  fanInWindow : u.fanInWindow = t.fanInWindow
  swu : u.swu = t.swu
  hst : u.hst = t.hst
  dcc : u.dcc = { t.dcc with readQ := u.dcc.readQ, nextSeq := u.dcc.nextSeq }
  dram : u.dram = t.dram
  alerts : u.alerts = t.alerts
  pending : u.pending = t.pending
  counters : u.counters = { t.counters with hits := u.counters.hits, misses := u.counters.misses }
  tag : e.tag = tag
  decision : e.decision = h.decision
  header : e.header = h.header

/-- A read of a buffer cell is done where its cell is held or the read queue has room. -/
theorem State.takeBufferRead_ends {t : State} {cell : Nat} (id : Nat) (tag : Tag) (x : Extent) (h : HeaderRead)
    (boost : Bool) (room : t.hst.lookup? cell = none → t.dcc.readQ.length < 32) :
    ∃ u e, t.takeBufferRead cell id tag x h boost = some u ∧ t.ReadEnds tag h e u := by
  unfold State.takeBufferRead
  cases hx : t.hst.lookup? cell with
  | some slot =>
    exact ⟨_, _, rfl, rfl, rfl, rfl, rfl, rfl, rfl, rfl, rfl, rfl, rfl, rfl, rfl, rfl, rfl, rfl, rfl, rfl, rfl, rfl⟩
  | none =>
    exact ⟨_, _, State.queueRead_eq_some.mpr ⟨room hx, rfl⟩,
      rfl, rfl, rfl, rfl, rfl, rfl, rfl, rfl, rfl, rfl, rfl, rfl, rfl, rfl, rfl, rfl, rfl, rfl, rfl⟩

/-- Where its need is met, the take of a CELL_READ at a ring position is done (R144, R149). -/
theorem State.HeadReadsPosition.takes {s : State} {cell : Nat} {tag : Tag} {rest : List Request} {k : Fin 64}
    {p : Nat} (h : s.HeadReadsPosition cell tag rest k p) :
    ∃ u e, exec .cellRead s = .next u.settle ∧
      ((s.popHead rest).trackRead k p).1.ReadEnds tag ((s.popHead rest).headerRead k p).2 e u := by
  obtain ⟨head, buffer, position, fresh, entry, room⟩ := h
  obtain ⟨id, hid⟩ := FrontEnd.freeEntry?_of_length (f := (s.popHead rest).rfe) entry
  have keeps := (s.popHead rest).trackRead_keeps k p
  obtain ⟨u, e, hu, ends⟩ := State.takeBufferRead_ends (t := ((s.popHead rest).trackRead k p).1) (cell := cell) id tag
    .cell ((s.popHead rest).headerRead k p).2 (((s.popHead rest).ring k).state == .incast)
    (by rw [keeps.hst, keeps.dcc]; exact room)
  refine ⟨u, e, ?_, ends⟩
  have take : (s.popHead rest).takeCellRead cell tag = some u := by
    unfold State.takeCellRead
    rw [hid, State.popHead_cellClass, buffer]
    dsimp only
    rw [State.popHead_rfe, if_neg fresh]
    unfold State.takeBufferCellRead
    rw [State.popHead_ringClass, position]
    exact hu
  rw [exec_cellRead head, take]
  rfl

/-- What such a take leaves of the part (`TakeKeeps`), from the state before its head left the queue. -/
theorem State.ReadEnds.takeKeeps {s u : State} {rest : List Request} {k : Fin 64} {p : Nat} {tag : Tag} {h : HeaderRead}
    {e : Response} (ends : ((s.popHead rest).trackRead k p).1.ReadEnds tag h e u) : s.TakeKeeps rest u := by
  have keeps := (s.popHead rest).trackRead_keeps k p
  have hst : u.hst = s.hst := ends.hst.trans keeps.hst
  have dcc := ends.dcc
  rw [keeps.dcc] at dcc
  have writeQ : u.dcc.writeQ = s.dcc.writeQ := by rw [dcc]; rfl
  exact ⟨ends.rstnLow.trans keeps.rstnLow, ends.capacity.trans keeps.capacity, ends.sje.trans keeps.sje,
    ends.fanInWindow.trans keeps.fanInWindow, ends.swu.trans keeps.swu, ends.dram.trans keeps.dram,
    ends.pending.trans keeps.pending, ends.rq.trans (congrArg _ keeps.rfe), ends.clp.trans keeps.clp,
    by rw [writeQ]; exact dcc, by rw [hst]⟩

/-! ### The statements -/

/-- Settles O17: the rest of the take leaves the rings, and the tracking makes the position effect of its case. -/
theorem positionReadMovesTheDrain : Obligations.PositionReadMovesTheDrain := by
  intro s cell tag rest k p h
  obtain ⟨u, e, hexec, ends⟩ := h.takes
  have keeps := (s.popHead rest).trackRead_keeps k p
  obtain ⟨alerts, counters⟩ := (s.popHead rest).trackRead_alerts_counters k p
  have ring (j : Fin 64) : u.ring j = ((s.popHead rest).trackRead k p).1.ring j := State.ring_of_rings ends.rings j
  obtain ⟨track, reads⟩ := (s.popHead rest).trackRead_track k p
  refine ⟨u, hexec, ends.takeKeeps, fun j hj => (ring j).trans (keeps.ring j hj), by rw [ends.dcc, keeps.dcc]; rfl,
    by rw [ends.hst, keeps.hst]; rfl, ends.alerts.trans alerts, by rw [ends.counters, counters]; rfl, ?_⟩
  intro r v c n away
  have hv : v = ((s.popHead rest).trackRead k p).1.ring k := ring k
  rw [hv]
  obtain ⟨h1, h2, h3, h4, h5, h6, h7, h8, h9, h10⟩ := (s.popHead rest).trackRead_frame k p
  refine ⟨h1, h2, h3, h4, h5, h6, h7, h8, h9, h10, fun h0 hp => ?_, fun h0 hp hs => ?_, fun hs => ?_⟩
  · rw [track, reads, State.popHead_ring, Ring.readCase_advance h0 hp]; exact ⟨rfl, rfl⟩
  · rw [track, reads, State.popHead_ring, Ring.readCase_skipAhead h0 hp hs]; exact ⟨rfl, rfl⟩
  · rw [track, reads, State.popHead_ring, Ring.readCase_stray hs]; exact ⟨rfl, rfl⟩

/-- A packet is exempt for marking by its exempt bit alone (R12). -/
theorem PacketRecord.markKind_eq_exempt_iff (x : PacketRecord) : x.markKind = .exempt ↔ x.exempt = true := by
  unfold PacketRecord.markKind
  cases x.exempt with
  | true => simp [markKind_exempt]
  | false => cases x.kind <;> cases x.ecn <;> simp [Machine.markKind]

/-- The marking counters after a decision on a packet that is not exempt (R87). -/
theorem RingCounters.decided_marks_of_ne {kind : MarkKind} (h : kind ≠ .exempt) (c : RingCounters) (d : Decision) :
    (c.decided kind d).marks =
      (if d = .mark then bump c.marked 1 else c.marked, if d = .ceAlready then bump c.ceAlready 1 else c.ceAlready,
       if d = .unmarkable then bump c.unmarkable 1 else c.unmarkable, c.exempt) := by
  cases d <;> simp [RingCounters.decided, RingCounters.marks, h]

/-- The marking counters after a decision, one by one (R87). -/
theorem RingCounters.decided_marks (c : RingCounters) (x : PacketRecord) (policy : Policy) (a share : Nat) :
    (c.decided x.markKind (decideMark x.markKind policy a share).decision).marks =
      (if (decideMark x.markKind policy a share).decision = .mark then bump c.marked 1 else c.marked,
       if (decideMark x.markKind policy a share).decision = .ceAlready then bump c.ceAlready 1 else c.ceAlready,
       if (decideMark x.markKind policy a share).decision = .unmarkable then bump c.unmarkable 1 else c.unmarkable,
       if x.exempt = true then bump c.exempt 1 else c.exempt) := by
  by_cases he : x.exempt = true
  · rw [x.markKind_eq_exempt_iff.mpr he, decideMark_exempt, if_pos he]
    rfl
  · rw [RingCounters.decided_marks_of_ne (mt x.markKind_eq_exempt_iff.mp he), if_neg he]

/-- The Mark Unit at a header read, with the share written out (R64, R78, R79, R84). -/
theorem Ring.markRead_spec (r : Ring) (x : PacketRecord) :
    let verdict := decideMark (Machine.markKind x.exempt x.kind x.ecn) r.settings.policy r.credit
      (share (sojourn r.occ r.drain) r.settings.ps (r.settings.tl / 2 ^ r.ramp) (r.settings.th / 2 ^ r.ramp))
    let d := if x.decision = .none then verdict.decision else x.decision
    (r.markRead x r.occ).2 = d ∧
      (r.markRead x r.occ).1.credit = (if x.decision = .none then verdict.credit else r.credit) ∧
      (r.markRead x r.occ).1.counters.marks =
        (if x.decision = .none then
          (if d = .mark then bump r.counters.marked 1 else r.counters.marked,
           if d = .ceAlready then bump r.counters.ceAlready 1 else r.counters.ceAlready,
           if d = .unmarkable then bump r.counters.unmarkable 1 else r.counters.unmarkable,
           if x.exempt = true then bump r.counters.exempt 1 else r.counters.exempt)
        else r.counters.marks) := by
  intro verdict d
  unfold Ring.markRead
  by_cases hn : x.decision = .none
  · have hd : d = verdict.decision := if_pos hn
    rw [if_pos hn, if_pos hn, if_pos hn, hd]
    exact ⟨rfl, rfl, r.counters.decided_marks x _ _ _⟩
  · rw [if_neg hn, if_neg hn, if_neg hn]
    exact ⟨(if_neg hn).symm, rfl, rfl⟩

/-- Settles O18: the rest of the take adds the entry with what the lookup hands over, and the lookup does as it finds. -/
theorem headerLookupDecidesOnce : Obligations.HeaderLookupDecidesOnce := by
  intro s cell tag rest k p h
  obtain ⟨u, e, hexec, ends⟩ := h.takes
  have keeps := (s.popHead rest).trackRead_keeps k p
  have ring : u.ring k = ((s.popHead rest).trackRead k p).1.ring k := State.ring_of_rings ends.rings k
  obtain ⟨records, poolFree, credit, marks, skipped⟩ := (s.popHead rest).trackRead_lookup k p
  refine ⟨u, e, hexec, by rw [ends.responses, keeps.rfe]; rfl, ends.tag, ?_⟩
  intro r v c
  have hv : v = ((s.popHead rest).trackRead k p).1.ring k := ring
  rw [hv, records, credit, marks, skipped, ends.poolFree, poolFree, ends.decision, ends.header]
  constructor
  · intro fresh
    have notFound : lookupRecord p ((s.popHead rest).ring k).records = none :=
      lookupRecord_none.mpr (fun x hx hp => (fresh x hx).elim (· hp.1) (fun hl => absurd hp.2 (by omega)))
    have lookup := ((s.popHead rest).headerRead_cases k p).resolve_right
      (fun ⟨_, _, _, h, _⟩ => absurd (notFound.symm.trans h) nofun)
    rw [lookup.2]
    exact ⟨rfl, rfl, rfl, rfl, rfl, rfl, rfl⟩
  · intro older newer x hr hp hl first kept verdict d
    have found : lookupRecord p ((s.popHead rest).ring k).records = some (older, x, newer) :=
      lookupRecord_some.mpr ⟨hr, hp, hl, fun y hy hyp => (first y hy).elim (· hyp.1) (fun h0 => absurd hyp.2 (by omega))⟩
    obtain ⟨older', x', newer', h', lookup⟩ := ((s.popHead rest).headerRead_cases k p).resolve_left
      (fun h => absurd (h.1.symm.trans found) nofun)
    obtain ⟨rfl, rfl, rfl⟩ : older' = older ∧ x' = x ∧ newer' = newer := by
      simpa only [Option.some.injEq, Prod.mk.injEq] using h'.symm.trans found
    obtain ⟨decided, credited, marked⟩ := ((s.popHead rest).ring k).markRead_spec x'
    have hd : (((s.popHead rest).ring k).markRead x' ((s.popHead rest).ring k).occ).2 = d := decided
    dsimp only at lookup
    rw [hd] at lookup
    rw [lookup, State.ring_setRing_self]
    refine ⟨rfl, ?_, ?_, credited, marked, rfl, rfl⟩
    · have hkept : kept.length ≤ older'.length := List.length_filter_le _ _
      have hlen : ((s.popHead rest).ring k).records.length = older'.length + (newer'.length + 1) := by
        rw [State.popHead_ring, hr, List.length_append, List.length_cons]
      have hafter : (x'.afterRead d).length + (if x'.left = 1 then 1 else 0) = 1 := by
        unfold PacketRecord.afterRead
        split <;> rfl
      change s.poolFree + (_ - (kept ++ (x'.afterRead d ++ newer')).length) = _
      rw [hlen, List.length_append, List.length_append]
      omega
    · rw [Ring.markRead_eq]
      rfl

end Sys2Proof.Machine
end

section
/-! PROOFS. Every step keeps every ring's state and settings in their ranges: each move in the rings keeps `Ring.Ok`.
Settles O47. -/

namespace Sys2Proof.Machine

/-! ### Settings, estimate and share stay in range (R57, R61 to R66) -/

/-- D moves towards 16·c and not past it. -/
theorem drainUpdate_le {d c : Nat} (dw : Nat) (hd : d ≤ 65520) (hc : c ≤ 4095) : drainUpdate d c dw ≤ 65520 := by
  unfold drainUpdate
  have hpos : (0 : Int) < ((2 ^ dw : Nat) : Int) := by exact_mod_cast Nat.two_pow_pos dw
  have hstep : (d : Int) + (16 * (c : Int) - (d : Int)) / ((2 ^ dw : Nat) : Int) ≤ 65520 := by
    rcases Int.le_total 0 (16 * (c : Int) - (d : Int)) with h | h
    · have := Int.ediv_le_self ((2 ^ dw : Nat) : Int) h
      omega
    · have := Int.ediv_nonpos_of_nonpos_of_neg h hpos
      omega
  omega

theorem sojourn_le (q d : Nat) : sojourn q d ≤ 65535 := by
  unfold sojourn
  split_ifs <;> omega

theorem share_le {t ps tl' th' : Nat} (hps : ps ≤ 256) : share t ps tl' th' ≤ 256 := by
  unfold share
  split_ifs with h1 h2
  · exact Nat.zero_le _
  · exact le_rfl
  · have hle : t - tl' ≤ th' - tl' := by omega
    exact (Nat.div_le_of_le_mul (by rw [Nat.mul_comm]; exact Nat.mul_le_mul_right ps hle)).trans hps

theorem nextRamp_le (ramp ml : Nat) (state : RingState) : nextRamp ramp ml state ≤ ml := by
  cases state <;> exact Nat.min_le_right _ _

theorem Ring.nextStall_le (r : Ring) : r.nextStall ≤ 255 := by
  unfold Ring.nextStall
  split_ifs <;> omega

theorem Ring.nextDrain_le {r : Ring} (set : Settings) (sl : Nat) (hd : r.drain ≤ 65520) (hc : r.reads ≤ 4095) :
    r.nextDrain set sl ≤ 65520 := by
  unfold Ring.nextDrain
  split
  · exact hd
  · exact drainUpdate_le _ hd hc

/-- The ranges of a ring's estimate and settings once the settings are taken, with their clamps (R57). -/
theorem Ring.estimateOk_of_taken {r : Ring} (h : r.stagedSettings.InRange)
    (settings : r.settings = r.stagedSettings.taken) (drain : r.drain ≤ 65520) (ramp : r.ramp ≤ r.settings.ml)
    (stall : r.stall ≤ 255) (lastT : r.lastT ≤ 65535) (credit : r.credit ≤ 255) : r.EstimateOk ∧ r.SettingsOk := by
  obtain ⟨hth, hqf, hhh⟩ := h
  have hps : 1 ≤ r.stagedSettings.taken.ps ∧ r.stagedSettings.taken.ps ≤ 256 := by
    dsimp only [StagedSettings.taken]
    split_ifs <;> omega
  unfold Ring.EstimateOk Ring.SettingsOk
  rw [settings] at ramp ⊢
  refine ⟨⟨drain, ramp, ?_, stall, lastT, ?_, hps.1, hps.2, credit⟩, ⟨?_, ?_, ?_, ?_, hqf, hhh, ?_⟩, hth, hqf, hhh⟩ <;>
    dsimp only [StagedSettings.taken] <;> omega

/-! ### Sender Lists (R41) -/

theorem Ring.SendersOk.of_sublist {r v : Ring} (h : r.SendersOk) (sub : v.senders.Sublist r.senders) : v.SendersOk := by
  obtain ⟨len, nodup, packets⟩ := h
  exact ⟨sub.length_le.trans len, nodup.sublist (sub.map _), fun e he => packets e (sub.subset he)⟩

/-- An entry joins the front of a Sender List with room that does not list its signature. -/
theorem Ring.SendersOk.cons {r v : Ring} {e : Sender} {rest : List Sender} (h : r.SendersOk)
    (hv : v.senders = e :: rest) (sub : rest.Sublist r.senders) (room : rest.length < 16)
    (fresh : ∀ x ∈ rest, x.signature ≠ e.signature) (he : 1 ≤ e.packets ∧ e.packets ≤ 65535) : v.SendersOk := by
  obtain ⟨-, nodup, packets⟩ := h
  unfold Ring.SendersOk
  rw [hv, List.map_cons, List.nodup_cons]
  refine ⟨room, ⟨fun hm => ?_, nodup.sublist (sub.map _)⟩,
    List.forall_mem_cons.mpr ⟨he, fun x hx => packets x (sub.subset hx)⟩⟩
  obtain ⟨x, hx, hsig⟩ := List.mem_map.mp hm
  exact fresh x hx hsig

/-- A sender update keeps the list's length, its distinct signatures and its counts (R42, R43). -/
theorem Ring.SendersOk.noteSender {r v : Ring} {sig : Signature} {now : Epoch} (h : r.SendersOk)
    (hv : v.senders = Machine.noteSender r.senders sig now) : v.SendersOk := by
  unfold Machine.noteSender at hv
  have len := h.1
  split at hv
  · rename_i e he
    have hlt : (r.senders.filter (fun e => e.signature != sig)).length < r.senders.length := by
      rw [List.length_filter_lt_length_iff_exists]
      exact ⟨e, List.mem_of_find?_eq_some he, by simpa using List.find?_some he⟩
    exact h.cons hv List.filter_sublist (by omega) (fun x hx => by simpa using (List.mem_filter.mp hx).2)
      (by dsimp only; omega)
  · rename_i hnone
    have fresh : ∀ e ∈ r.senders, e.signature ≠ sig := by simpa using hnone
    have hsub : (if r.senders.length < 16 then r.senders else r.senders.dropLast).Sublist r.senders := by
      split
      · exact List.Sublist.refl _
      · exact List.dropLast_sublist _
    refine h.cons hv hsub ?_ (fun x hx => fresh x (hsub.subset hx)) (by dsimp only; omega)
    split
    · assumption
    · rw [List.length_dropLast]; omega

/-! ### Positions (R18 to R29) -/

/-- The position at distance (p − d) mod N from d is p. -/
theorem add_distance_mod {p d n : Nat} (hd : d < n) (hp : p < n) : (d + distance p d n) % n = p := by
  unfold distance
  have : d + (p + n - d) = p + n := by omega
  rw [Nat.add_mod, Nat.mod_mod, ← Nat.add_mod, this, Nat.add_mod_right, Nat.mod_eq_of_lt hp]

theorem successor_mod (a n : Nat) : successor (a % n) n = (a + 1) % n := Nat.mod_add_mod a n 1

section
variable {r : Ring} {p : Nat}

/-- The span of an active ring after the position effect of a write (R20 to R24). -/
theorem Ring.SpanOk.moveWrite (h : r.SpanOk) (on : r.state ≠ .off) (hp : p < r.active.length) :
    (r.moveWrite p (r.writeCase p)).SpanOk := by
  obtain ⟨two, len, lead, fill, drain, occ, span, reads⟩ := h on
  have pos : 0 < r.active.length := by omega
  have below (a : Nat) : successor a r.active.length < r.active.length := Nat.mod_lt _ pos
  intro _
  rcases r.writeCase_cases p with ⟨h0, e⟩ | ⟨h0, hf, hlt, e⟩ | ⟨h0, hf, hge, e⟩ | ⟨-, -, -, e⟩ | ⟨h0, hf, hge, e⟩ <;>
    rw [e]
  · exact ⟨two, len, lead, below p, hp, by dsimp only [Ring.moveWrite]; omega, fun _ => rfl, reads⟩
  · refine ⟨two, len, lead, below _, drain, hlt, fun _ => ?_, reads⟩
    dsimp only [Ring.moveWrite]
    rw [span (by omega), successor_mod, Nat.add_assoc]
  · refine ⟨two, len, lead, below _, below _, occ, fun _ => ?_, reads⟩
    dsimp only [Ring.moveWrite]
    rw [span (by omega), successor_mod, successor, Nat.mod_add_mod, Nat.add_right_comm]
  · exact ⟨two, len, lead, fill, drain, occ, span, reads⟩
  · have hd : distance p r.drainPos r.active.length < r.active.length := Nat.mod_lt _ pos
    refine ⟨two, len, lead, below p, drain, hd, fun _ => ?_, reads⟩
    dsimp only [Ring.moveWrite]
    rw [← Nat.add_assoc, ← Nat.mod_add_mod, add_distance_mod drain hp]
    rfl

/-- The span of an active ring after the position effect of a read (R26 to R29). -/
theorem Ring.SpanOk.moveRead (h : r.SpanOk) (on : r.state ≠ .off) (hp : p < r.active.length) :
    (r.moveRead p (r.readCase p)).SpanOk := by
  obtain ⟨two, len, lead, fill, drain, occ, span, reads⟩ := h on
  have pos : 0 < r.active.length := by omega
  have below (a : Nat) : successor a r.active.length < r.active.length := Nat.mod_lt _ pos
  intro _
  rcases r.readCase_cases p with ⟨h0, hd, e⟩ | ⟨h0, hd, hlt, e⟩ | ⟨-, e⟩ <;> rw [e]
  · refine ⟨two, len, lead, fill, below _, (Nat.sub_le _ _).trans occ, fun _ => ?_, Nat.min_le_left _ _⟩
    dsimp only [Ring.moveRead]
    rw [span (by omega), successor, Nat.mod_add_mod]
    congr 1
    omega
  · refine ⟨two, len, lead, fill, below p, (Nat.sub_le _ _).trans occ, fun _ => ?_, Nat.min_le_left _ _⟩
    have hs : successor p r.active.length =
        (r.drainPos + distance p r.drainPos r.active.length + 1) % r.active.length := by
      rw [← successor_mod, add_distance_mod drain hp]
    dsimp only [Ring.moveRead]
    rw [span (by omega), hs, Nat.mod_add_mod]
    congr 1
    omega
  · exact ⟨two, len, lead, fill, drain, occ, span, reads⟩

end

theorem Ring.SpanOk.of_track {r v : Ring} (h : r.SpanOk) (track : v.track = r.track) (active : v.active = r.active)
    (state : v.state = r.state) : v.SpanOk := by
  obtain ⟨fill, drain, occ, reads⟩ : v.fillPos = r.fillPos ∧ v.drainPos = r.drainPos ∧ v.occ = r.occ ∧
      v.reads = r.reads := by simpa only [Ring.track, Prod.mk.injEq] using track
  unfold Ring.SpanOk
  rw [fill, drain, occ, reads, active, state]
  exact h

/-! ### Packet records (R25, R30, R31) -/

theorem Ring.RecordsOk.of_sublist {r v : Ring} (h : r.RecordsOk) (sub : v.records.Sublist r.records)
    (active : v.active = r.active) : v.RecordsOk := by
  obtain ⟨nodup, ranges⟩ := h
  unfold Ring.RecordsOk
  rw [active]
  exact ⟨nodup.sublist (sub.map _), fun x hx => ranges x (sub.subset hx)⟩

/-- A record that joins at a position without one (R25, R31). -/
theorem Ring.RecordsOk.append {r v : Ring} {kept : List PacketRecord} {x : PacketRecord} (h : r.RecordsOk)
    (sub : kept.Sublist r.records) (records : v.records = kept ++ [x]) (active : v.active = r.active)
    (fresh : ∀ y ∈ kept, y.pos ≠ x.pos) (hx : x.pos < r.active.length ∧ 1 ≤ x.left ∧ x.left ≤ x.total ∧ x.total ≤ 15) :
    v.RecordsOk := by
  obtain ⟨nodup, ranges⟩ := h
  unfold Ring.RecordsOk
  rw [records, active, List.map_append, List.nodup_append, List.forall_mem_append]
  refine ⟨⟨nodup.sublist (sub.map _), List.nodup_singleton _, ?_⟩, fun y hy => ranges y (sub.subset hy), ?_⟩
  · rintro _ hy _ hb rfl
    obtain ⟨y, hy, hpos⟩ := List.mem_map.mp hy
    exact fresh y hy (hpos.trans (List.mem_singleton.mp hb))
  · intro y hy
    obtain rfl := List.mem_singleton.mp hy
    exact hx

/-- The record of a first cell has its copies in range: a cell has four bits for them (R4, R30). -/
theorem newRecord_inRange (p : Nat) (data : List Byte) (now : Epoch) :
    1 ≤ (newRecord p (parse data) now).left ∧
      (newRecord p (parse data) now).left ≤ (newRecord p (parse data) now).total ∧
      (newRecord p (parse data) now).total ≤ 15 := by
  have hc : (parse data).copies < 16 := Nat.mod_lt _ (by decide)
  unfold newRecord
  dsimp only
  split_ifs <;> omega

/-- The records after a header read: positions are those of records before, and the one read has a copy less (R33). -/
theorem Ring.RecordsOk.afterRead {r v : Ring} {older newer : List PacketRecord} {x : PacketRecord} (h : r.RecordsOk)
    (hr : r.records = older ++ x :: newer) (d : Decision)
    (records : v.records = older.filter PacketRecord.wasRead ++ (x.afterRead d ++ newer))
    (active : v.active = r.active) : v.RecordsOk := by
  obtain ⟨nodup, ranges⟩ := h
  rw [hr] at nodup ranges
  have hsub : (older.filter PacketRecord.wasRead).Sublist older := List.filter_sublist
  have hx := ranges x (by simp)
  unfold Ring.RecordsOk
  rw [records, active]
  unfold PacketRecord.afterRead
  constructor
  · refine nodup.sublist ?_
    rw [List.map_append, List.map_append, List.map_append, List.map_cons]
    refine (hsub.map _).append ?_
    split
    · exact List.sublist_cons_self _ _
    · exact List.Sublist.refl _
  · rw [List.forall_mem_append, List.forall_mem_append]
    refine ⟨fun y hy => ranges y (List.mem_append_left _ (hsub.subset hy)), fun y hy => ?_,
      fun y hy => ranges y (by simp [hy])⟩
    split at hy
    · cases hy
    · obtain rfl := List.mem_singleton.mp hy
      dsimp only
      omega

/-- A decision keeps the credit a byte (R77, R79). -/
theorem Ring.markRead_credit_le {r : Ring} (x : PacketRecord) (h : r.credit ≤ 255) (hps : r.settings.ps ≤ 256) :
    (r.markRead x r.occ).1.credit ≤ 255 := by
  unfold Ring.markRead
  split
  · exact decideMark_credit_le _ _ h (share_le hps)
  · exact h

/-! ### Each move keeps every ring in range -/

/-- An active ring that has been tracked is in range where its span, its records and its Sender List are. -/
theorem Ring.Ok.tracked {r v : Ring} (h : r.Ok) (on : r.state ≠ .off) (estimate : v.estimate = r.estimate)
    (stagedSettings : v.stagedSettings = r.stagedSettings) (credit : v.credit ≤ 255) (span : v.SpanOk)
    (records : v.RecordsOk) (senders : v.SendersOk) : v.Ok := by
  obtain ⟨-, -, -, -, est, set⟩ := h
  obtain ⟨state, drain, ramp, stall, lastT, settings⟩ : v.state = r.state ∧ v.drain = r.drain ∧ v.ramp = r.ramp ∧
      v.stall = r.stall ∧ v.lastT = r.lastT ∧ v.settings = r.settings := by
    simpa only [Ring.estimate, Prod.mk.injEq] using estimate
  refine ⟨fun off => absurd (state.symm.trans off) on, span, records, senders, ?_, ?_⟩
  · unfold Ring.EstimateOk at est ⊢
    rw [drain, ramp, stall, lastT, settings]
    obtain ⟨e1, e2, e3, e4, e5, e6, e7, e8, -⟩ := est
    exact ⟨e1, e2, e3, e4, e5, e6, e7, e8, credit⟩
  · unfold Ring.SettingsOk
    rw [settings, stagedSettings]
    exact set

section
variable {s : State} {k : Fin 64} {p : Nat}

theorem State.trackWrite_ringOk (data : List Byte) (ok : (s.ring k).Ok) (on : (s.ring k).state ≠ .off)
    (hp : p < (s.ring k).active.length) : ((s.trackWrite k p (summaryOf data)).ring k).Ok := by
  have ⟨_, span, recordsOk, sendersOk, ⟨_, _, _, _, _, _, _, _, creditOk⟩, _⟩ := ok
  obtain ⟨estimate, active, -, staged, records, senders, credit, -⟩ :=
    (s.ring k).moveWrite_frame p ((s.ring k).writeCase p)
  have moved := span.moveWrite on hp
  by_cases case : (s.ring k).writeCase p = .rewrite
  · rw [State.trackWrite_rewrite _ case, State.ring_setRing_self]
    rw [case] at estimate active staged records senders credit moved
    exact ok.tracked on estimate staged (credit.trans_le creditOk) moved
      (recordsOk.of_sublist (by rw [records]) active) (sendersOk.of_sublist (by rw [senders]))
  · have accepts := State.trackWrite_accepts (summaryOf data) case
    obtain ⟨_, _, _, _, ht⟩ := s.trackWrite_ring k p (summaryOf data)
    have active' : ((s.trackWrite k p (summaryOf data)).ring k).active = (s.ring k).active := by rw [ht]; exact active
    refine ok.tracked on (by rw [ht]; exact estimate) (by rw [ht]; exact staged)
      (by rw [ht]; exact credit.trans_le creditOk) (by rw [ht]; exact moved) ?_ ?_
    · have sub := (s.ring k).keptAt_sublist p
      cases hsm : summaryOf data with
      | none =>
        rw [hsm] at accepts active'
        exact recordsOk.of_sublist (by rw [(accepts.notFirst rfl).1]; exact sub) active'
      | some sm =>
        rw [hsm] at accepts active'
        obtain rfl : sm = parse data := by
          rw [summaryOf_eq] at hsm
          split at hsm <;> simp_all
        rcases (accepts.creates _ rfl).cases with ⟨-, created, -⟩ | ⟨refused, -⟩
        · exact recordsOk.append sub created active' (fun y hy => Ring.keptAt_pos_ne hy)
            ⟨hp, newRecord_inRange p data _⟩
        · exact recordsOk.of_sublist (by rw [refused]; exact sub) active'
    · cases hsm : summaryOf data with
      | none =>
        rw [hsm] at accepts
        obtain ⟨-, -, senders, -⟩ := accepts.notFirst rfl
        exact sendersOk.of_sublist (by rw [senders])
      | some sm =>
        rw [hsm] at accepts
        exact sendersOk.noteSender (accepts.senders sm rfl)

theorem State.trackRead_ringOk (ok : (s.ring k).Ok) (on : (s.ring k).state ≠ .off)
    (hp : p < (s.ring k).active.length) : ((s.trackRead k p).1.ring k).Ok := by
  have ⟨_, span, recordsOk, sendersOk, ⟨_, _, _, _, _, _, _, hps, creditOk⟩, _⟩ := ok
  obtain ⟨estimate, active, -, staged, senders, -⟩ := s.trackRead_frame k p
  obtain ⟨records, -, credit, -⟩ := s.trackRead_lookup k p
  obtain ⟨track, -⟩ := s.trackRead_track k p
  have state : ((s.trackRead k p).1.ring k).state = (s.ring k).state := congrArg Prod.fst estimate
  obtain ⟨drainPos, occ, reads, counters, hm⟩ := (s.ring k).moveRead_keeps p ((s.ring k).readCase p)
  have moved : ((s.trackRead k p).1.ring k).SpanOk :=
    (span.moveRead on hp).of_track track (active.trans (by rw [hm])) (state.trans (by rw [hm]))
  have senders' := sendersOk.of_sublist (v := (s.trackRead k p).1.ring k) (by rw [senders])
  rcases s.headerRead_cases k p with ⟨-, h⟩ | ⟨older, x, newer, found, h⟩ <;> rw [h] at records credit
  · exact ok.tracked on estimate staged (credit.trans_le creditOk) moved
      (recordsOk.of_sublist (by rw [records]) active) senders'
  · dsimp only at records credit
    rw [State.ring_setRing_self] at records credit
    exact ok.tracked on estimate staged (credit.trans_le (Ring.markRead_credit_le x creditOk hps)) moved
      (recordsOk.afterRead (lookupRecord_some.mp found).1 _ records active) senders'

end

/-- The expiry work keeps an active ring in range, and only the active have it (R69 to R74). -/
theorem Ring.Ok.expire {r : Ring} (now : Epoch) (w sl : Nat) (h : r.Ok) : (r.expire now w sl).Ok := by
  obtain ⟨offOk, span, records, senders, est, set⟩ := h
  have aged : (ageSenders r.senders now w).Sublist r.senders := List.filter_sublist
  unfold Ring.expire
  by_cases on : r.isActive = true
  · have hon : r.state ≠ .off := Ring.isActive_iff.mp on
    obtain ⟨drain, -, -, -, -, -, -, -, credit⟩ := est
    obtain ⟨two, len, lead, fill, dpos, occ, spanEq, reads⟩ := span hon
    rw [if_pos on]
    obtain ⟨est', set'⟩ := Ring.estimateOk_of_taken (r := { r.expiryWork now w sl with
        senders := ageSenders r.senders now w }) set.2 rfl (Ring.nextDrain_le _ sl drain reads) (nextRamp_le _ _ _)
      r.nextStall_le (sojourn_le _ _) credit
    exact ⟨fun off => absurd off (r.nextState_ne_off _ _ _ _),
      fun _ => ⟨two, len, lead, fill, dpos, occ, spanEq, Nat.zero_le _⟩, records, senders.of_sublist aged, est', set'⟩
  · have hoff : r.state = .off := by simpa [Ring.isActive] using on
    obtain ⟨e1, e2, e3, e4, e5, e6, e7, e8⟩ := offOk hoff
    rw [if_neg on]
    exact ⟨fun _ => ⟨e1, e2, e3, e4, e5, e6, by rw [e7]; rfl, e8⟩, fun h => absurd hoff h, records,
      senders.of_sublist aged, est, set⟩

theorem Ring.reset_ok : Ring.reset.Ok :=
  ⟨fun _ => ⟨rfl, rfl, rfl, rfl, rfl, rfl, rfl, rfl, rfl, rfl, rfl, rfl⟩, fun h => absurd rfl h, ⟨List.nodup_nil, nofun⟩,
    ⟨Nat.zero_le _, List.nodup_nil, nofun⟩, by decide, by decide⟩

/-- A ring that its enable has validated is in range (R36, R37). -/
theorem State.enableRing_ringOk {s : State} {k : Fin 64} (ok : (s.ring k).Ok) :
    ((s.enableRing k).ring k).Ok := by
  unfold State.enableRing
  split
  · exact ok
  split
  · exact ok
  · rename_i refused
    rw [State.ring_setRing_self]
    unfold State.refusesEnable at refused
    simp only [Bool.or_eq_true, decide_eq_true_eq, not_or, Nat.not_lt] at refused
    obtain ⟨⟨⟨⟨two, len⟩, lead⟩, -⟩, -⟩ := refused
    obtain ⟨-, -, -, -, -, set⟩ := ok
    have pos : 0 < (s.ring k).staged.length := by omega
    obtain ⟨est', set'⟩ := Ring.estimateOk_of_taken (r := (s.ring k).enabled) set.2 rfl (Nat.zero_le _) (Nat.zero_le _)
      (Nat.zero_le _) (Nat.zero_le _) (Nat.zero_le _)
    exact ⟨nofun, fun _ => ⟨two, len, lead, pos, pos, Nat.zero_le _, fun h => absurd h (Nat.lt_irrefl 0), Nat.zero_le _⟩,
      ⟨List.nodup_nil, nofun⟩, ⟨Nat.zero_le _, List.nodup_nil, nofun⟩, est', set'⟩

theorem Ring.Ok.disabled {r : Ring} (h : r.Ok) : r.disabled.Ok := by
  obtain ⟨-, -, -, -, ⟨-, -, ml, -, -, tl, ps, ps', -⟩, set⟩ := h
  exact ⟨fun _ => ⟨rfl, rfl, rfl, rfl, rfl, rfl, rfl, rfl, rfl, rfl, rfl, rfl⟩, fun h => absurd rfl h,
    ⟨List.nodup_nil, nofun⟩, ⟨Nat.zero_le _, List.nodup_nil, nofun⟩,
    ⟨Nat.zero_le _, Nat.zero_le _, ml, Nat.zero_le _, Nat.zero_le _, tl, ps, ps', Nat.zero_le _⟩, set⟩

/-- Staging in range and counting keep a ring in range (R162, R173). -/
theorem Ring.Ok.stage {r : Ring} (h : r.Ok) (g : Geometry) {x : StagedSettings} (c : RingCounters)
    (hx : r.stagedSettings.InRange → x.InRange) : { r with staged := g, stagedSettings := x, counters := c }.Ok := by
  obtain ⟨offOk, span, records, senders, est, set⟩ := h
  exact ⟨offOk, span, records, senders, est, set.1, hx set.2⟩

/-- A move that changes one ring alone keeps every ring in range where it keeps that one. -/
theorem State.RingsOk.of_one {s t : State} {k : Fin 64} (h : s.RingsOk) (others : ∀ j, j ≠ k → t.ring j = s.ring j)
    (hk : (t.ring k).Ok) : t.RingsOk := by
  intro j
  by_cases e : j = k
  · rw [e]; exact hk
  · rw [others j e]; exact h j

theorem State.enableRing_others (s : State) (k : Fin 64) : ∀ j, j ≠ k → (s.enableRing k).ring j = s.ring j := by
  intro j h
  unfold State.enableRing
  split_ifs
  · rfl
  · rfl
  · exact State.ring_setRing_of_ne s _ h

theorem State.disableRing_others (s : State) (k : Fin 64) : ∀ j, j ≠ k → (s.disableRing k).ring j = s.ring j := by
  intro j h
  unfold State.disableRing
  split_ifs
  · exact State.ring_setRing_of_ne _ _ h
  · rfl

theorem State.RingMove.ringsOk (s t : State) (h : s.RingsOk) (move : s.RingMove t) : t.RingsOk := by
  cases move with
  | stage rings =>
    intro k
    obtain ⟨g, x, c, e, hx⟩ := rings k
    rw [e]
    exact (h k).stage g c hx
  | expire now w sl rings => intro k; rw [rings k]; exact (h k).expire now w sl
  | softReset => intro k; rw [State.completeSoftReset_ring]; exact Ring.reset_ok
  | trackWrite data on inRing =>
    exact h.of_one (s.trackWrite_keeps _ _ _).ring (State.trackWrite_ringOk data (h _) on inRing)
  | trackRead on inRing => exact h.of_one (s.trackRead_keeps _ _).ring (State.trackRead_ringOk (h _) on inRing)
  | enable k => exact h.of_one (s.enableRing_others k) (State.enableRing_ringOk (h k))
  | disable k =>
    refine h.of_one (s.disableRing_others k) ?_
    unfold State.disableRing
    split
    · rw [State.ring_setRing_self]; exact (h k).disabled
    · exact h k

theorem State.reset_ring (k : Fin 64) : State.reset.ring k = Ring.reset := by simp [State.ring, State.reset]

theorem State.reset_ringsOk : State.reset.RingsOk := fun k => by rw [State.reset_ring]; exact Ring.reset_ok

/-- Settles O47: every move in the rings keeps them in range, and a step makes such moves or resets the part. -/
theorem ringsStayInRange : Obligations.RingsStayInRange :=
  step_keeps (fun _ _ h => h) (fun _ _ h run =>
    run.keeps_of_moves State.RingMove.ringsOk (fun _ _ => State.reset_ringsOk) (fun _ _ h => h) h)

end Sys2Proof.Machine
end

section
/-! PROOFS. Every step keeps the packet records and the free pool at 4096 together: each move returns to the pool the
records it removes and takes from it those it adds. Settles O48. -/

namespace Sys2Proof.Machine

/-! ### The records of all rings (R31) -/

theorem recordCount_eq_sum (s : State) : recordCount s.rings = ∑ k : Fin 64, (s.ring k).records.length := by
  have hv : s.rings = Vector.ofFn (fun k : Fin 64 => s.ring k) := by
    ext i hi : 1
    rw [Vector.getElem_ofFn]
    rfl
  unfold recordCount
  rw [hv, Vector.toList_ofFn, List.map_ofFn, List.sum_ofFn]
  rfl

/-- Where one ring alone changes, what it loses and the pool gains come to the same. -/
theorem State.poolFree_add_recordCount_of_one {s t : State} {k : Fin 64} (others : ∀ j, j ≠ k → t.ring j = s.ring j)
    (h : t.poolFree + (t.ring k).records.length = s.poolFree + (s.ring k).records.length) :
    t.poolFree + recordCount t.rings = s.poolFree + recordCount s.rings := by
  have rest : ∑ j ∈ Finset.univ.erase k, (t.ring j).records.length =
      ∑ j ∈ Finset.univ.erase k, (s.ring j).records.length :=
    Finset.sum_congr rfl (fun j hj => by rw [others j (Finset.ne_of_mem_erase hj)])
  rw [recordCount_eq_sum, recordCount_eq_sum, ← Finset.add_sum_erase _ _ (Finset.mem_univ k),
    ← Finset.add_sum_erase _ _ (Finset.mem_univ k), rest]
  omega

section
variable {s t : State}

/-- A move that changes one ring alone keeps the pool where the ring's records and the free pool do not change together,
and an OFF ring lists none. -/
theorem State.PoolOk.of_one {k : Fin 64} (h : s.PoolOk) (others : ∀ j, j ≠ k → t.ring j = s.ring j)
    (hk : t.poolFree + (t.ring k).records.length = s.poolFree + (s.ring k).records.length)
    (off : (t.ring k).state = .off → (t.ring k).records = []) : t.PoolOk := by
  refine ⟨(State.poolFree_add_recordCount_of_one others hk).trans h.1, fun j hj => ?_⟩
  by_cases e : j = k
  · rw [e] at hj ⊢; exact off hj
  · rw [others j e] at hj ⊢; exact h.2 j hj

/-- A move that leaves every record and the free pool. -/
theorem State.PoolOk.of_records (h : s.PoolOk) (poolFree : t.poolFree = s.poolFree)
    (records : ∀ k, (t.ring k).records = (s.ring k).records)
    (off : ∀ k, (t.ring k).state = .off → (s.ring k).state = .off) : t.PoolOk := by
  refine ⟨?_, fun k hk => (records k).trans (h.2 k (off k hk))⟩
  rw [poolFree, recordCount_eq_sum, Finset.sum_congr rfl (fun k _ => congrArg List.length (records k)),
    ← recordCount_eq_sum]
  exact h.1

end

/-! ### Each move keeps the pool -/

section
variable {s : State} {k : Fin 64} {p : Nat}

/-- The records lost by a write return to the pool, and a record created is taken from it (R24, R25, R31). -/
theorem State.trackWrite_pool (sm : Option Summary) :
    (s.trackWrite k p sm).poolFree + ((s.trackWrite k p sm).ring k).records.length =
      s.poolFree + (s.ring k).records.length := by
  by_cases case : (s.ring k).writeCase p = .rewrite
  · obtain ⟨-, -, -, -, records, -⟩ := (s.ring k).moveWrite_frame p .rewrite
    rw [State.trackWrite_rewrite _ case, State.ring_setRing_self, records]
    rfl
  · have accepts := State.trackWrite_accepts sm case
    have hle := ((s.ring k).keptAt_sublist p).length_le
    cases sm with
    | none =>
      obtain ⟨records, poolFree, -⟩ := accepts.notFirst rfl
      rw [records, poolFree]
      omega
    | some sm =>
      rcases (accepts.creates sm rfl).cases with ⟨pos, records, poolFree⟩ | ⟨records, poolFree⟩ <;>
        rw [records, poolFree]
      · rw [List.length_append, List.length_singleton]
        omega
      · omega

/-- The records that a header read removes return to the pool (R33, R34). -/
theorem State.trackRead_pool :
    (s.trackRead k p).1.poolFree + ((s.trackRead k p).1.ring k).records.length =
      s.poolFree + (s.ring k).records.length := by
  obtain ⟨records, poolFree, -⟩ := s.trackRead_lookup k p
  rw [records, poolFree]
  rcases s.headerRead_cases k p with ⟨-, h⟩ | ⟨older, x, newer, found, h⟩ <;> rw [h]
  dsimp only
  rw [State.ring_setRing_self]
  have hr := congrArg List.length (lookupRecord_some.mp found).1
  have hkept := List.length_filter_le PacketRecord.wasRead older
  have hafter (d : Decision) : (x.afterRead d).length ≤ 1 := by
    unfold PacketRecord.afterRead
    split <;> simp
  have hx := hafter ((s.ring k).markRead x (s.ring k).occ).2
  simp only [List.length_append, List.length_cons, State.setRing_poolFree] at hr ⊢
  omega

end

/-- An expiry leaves the records, and no active ring is OFF after it (R69 to R72). -/
theorem Ring.expire_records (r : Ring) (now : Epoch) (w sl : Nat) :
    (r.expire now w sl).records = r.records ∧ (r.expire now w sl).active = r.active ∧
      ((r.expire now w sl).state = .off ↔ r.state = .off) := by
  unfold Ring.expire
  by_cases on : r.isActive = true
  · rw [if_pos on]
    exact ⟨rfl, rfl, fun h => absurd h (r.nextState_ne_off _ _ _ _), fun h => absurd h (Ring.isActive_iff.mp on)⟩
  · rw [if_neg on]
    exact ⟨rfl, rfl, Iff.rfl⟩

/-- Tracking leaves the ring's state and active geometry. -/
theorem State.trackWrite_state (s : State) (k : Fin 64) (p : Nat) (sm : Option Summary) :
    ((s.trackWrite k p sm).ring k).state = (s.ring k).state ∧
      ((s.trackWrite k p sm).ring k).active = (s.ring k).active := by
  obtain ⟨estimate, active, -⟩ := (s.ring k).moveWrite_frame p ((s.ring k).writeCase p)
  obtain ⟨_, _, _, _, h⟩ := s.trackWrite_ring k p sm
  rw [h]
  exact ⟨congrArg Prod.fst estimate, active⟩

theorem State.trackRead_state (s : State) (k : Fin 64) (p : Nat) :
    ((s.trackRead k p).1.ring k).state = (s.ring k).state ∧
      ((s.trackRead k p).1.ring k).active = (s.ring k).active := by
  obtain ⟨estimate, active, -⟩ := s.trackRead_frame k p
  exact ⟨congrArg Prod.fst estimate, active⟩

/-- Rings all at their reset values list no record. -/
theorem recordCount_reset : recordCount (Vector.replicate 64 Ring.reset) = 0 := by
  simp [recordCount, Ring.reset]

theorem State.RingMove.poolOk (s t : State) (h : s.PoolOk) (move : s.RingMove t) : t.PoolOk := by
  cases move with
  | stage rings poolFree =>
    refine h.of_records poolFree (fun k => ?_) (fun k => ?_) <;> obtain ⟨g, x, c, e, -⟩ := rings k <;> rw [e]
    exact id
  | expire now w sl rings poolFree =>
    refine h.of_records poolFree (fun k => ?_) (fun k => ?_) <;> rw [rings k] <;>
      obtain ⟨records, -, off⟩ := (s.ring k).expire_records now w sl
    · exact records
    · exact off.mp
  | softReset =>
    refine ⟨?_, fun k _ => by rw [State.completeSoftReset_ring]; rfl⟩
    rw [State.completeSoftReset_poolFree, State.completeSoftReset_rings, recordCount_reset]
    exact h.1
  | trackWrite data on =>
    refine h.of_one (s.trackWrite_keeps _ _ _).ring (State.trackWrite_pool _) (fun off => absurd ?_ on)
    exact (s.trackWrite_state _ _ _).1.symm.trans off
  | trackRead on =>
    refine h.of_one (s.trackRead_keeps _ _).ring State.trackRead_pool (fun off => absurd ?_ on)
    exact (s.trackRead_state _ _).1.symm.trans off
  | enable k =>
    have records : ((s.enableRing k).ring k).records = (s.ring k).records ∧
        (((s.enableRing k).ring k).state = .off → (s.ring k).state = .off) ∧
        (s.enableRing k).poolFree = s.poolFree := by
      unfold State.enableRing
      split_ifs with on
      · exact ⟨rfl, id, rfl⟩
      · exact ⟨rfl, id, rfl⟩
      · rw [State.ring_setRing_self]
        have off : (s.ring k).state = .off := by simpa [Ring.isActive] using on
        exact ⟨(h.2 k off).symm, nofun, rfl⟩
    obtain ⟨kept, off, poolFree⟩ := records
    exact h.of_one (s.enableRing_others k) (by rw [kept, poolFree]) (fun x => kept.trans (h.2 k (off x)))
  | disable k =>
    refine h.of_one (s.disableRing_others k) ?_ ?_ <;> unfold State.disableRing <;> split_ifs
    · rw [State.ring_setRing_self]; rfl
    · rfl
    · rw [State.ring_setRing_self]; exact fun _ => rfl
    · exact h.2 k

theorem State.reset_poolOk : State.reset.PoolOk :=
  ⟨congrArg (4096 + ·) recordCount_reset, fun k _ => by rw [State.reset_ring]; rfl⟩

/-- Settles O48: every move in the rings keeps the count, and a step makes such moves or resets the part. -/
theorem poolAlwaysNumbers4096 : Obligations.PoolAlwaysNumbers4096 :=
  step_keeps (fun _ _ h => h) (fun _ _ h run =>
    run.keeps_of_moves State.RingMove.poolOk (fun _ _ => State.reset_poolOk) (fun _ _ h => h) h)

end Sys2Proof.Machine
end

section
/-! PROOFS. Every step keeps INIT and the link clean and active regions apart, and the part in a power-on reset meets
every invariant. Settles O52 and O55. -/

namespace Sys2Proof.Machine

/-! ### Regions (R16, R36) -/

section
variable {s t : State}

/-- Where every ring is OFF there are no regions. -/
theorem State.RegionsOk.of_off (h : ∀ k, (t.ring k).state = .off) : t.RegionsOk :=
  ⟨fun k on => absurd (h k) on, fun j _ _ on => absurd (h j) on⟩

/-- Regions that stay, or go, stay apart. -/
theorem State.RegionsOk.of_shrink (h : s.RegionsOk) (capacity : t.capacity = s.capacity)
    (rings : ∀ k, (t.ring k).state ≠ .off → (s.ring k).state ≠ .off ∧ (t.ring k).active = (s.ring k).active) :
    t.RegionsOk := by
  obtain ⟨below, apart⟩ := h
  refine ⟨fun k on => ?_, fun j k hjk onj onk => ?_⟩
  · obtain ⟨on', active⟩ := rings k on
    rw [active, capacity]
    exact below k on'
  · obtain ⟨onj', activej⟩ := rings j onj
    obtain ⟨onk', activek⟩ := rings k onk
    rw [activej, activek]
    exact apart j k hjk onj' onk'

/-- Tracking in one ring leaves every region. -/
theorem State.TrackKeeps.regionsOk {k : Fin 64} (keeps : State.TrackKeeps k s t) (h : s.RegionsOk)
    (state : (t.ring k).state = (s.ring k).state) (active : (t.ring k).active = (s.ring k).active) : t.RegionsOk := by
  refine h.of_shrink keeps.capacity (fun j on => ?_)
  by_cases e : j = k
  · rw [e] at on ⊢; exact ⟨fun off => on (state.trans off), active⟩
  · rw [keeps.ring j e] at on ⊢; exact ⟨on, rfl⟩

end

theorem Geometry.overlaps_comm (a b : Geometry) : a.overlaps b = b.overlaps a := Bool.and_comm _ _

/-- An enable that is not refused adds a region below the service area and apart from the others (R36). -/
theorem State.enableRing_regionsOk {s : State} (k : Fin 64) (h : s.RegionsOk) : (s.enableRing k).RegionsOk := by
  unfold State.enableRing
  split
  · exact h
  split
  · exact h
  rename_i refused
  obtain ⟨below, apart⟩ := h
  unfold State.refusesEnable at refused
  simp only [Bool.or_eq_true, decide_eq_true_eq, not_or, Nat.not_lt, List.any_eq_true, Bool.and_eq_true, not_exists,
    not_and, Bool.not_eq_true] at refused
  obtain ⟨⟨-, stop⟩, free⟩ := refused
  have free (j : Fin 64) (on : (s.ring j).state ≠ .off) : (s.ring k).staged.overlaps (s.ring j).active = false :=
    free j (List.mem_finRange j) (Ring.isActive_iff.mpr on)
  have active (j : Fin 64) : ((s.setRing k (s.ring k).enabled).ring j).active =
      if j = k then (s.ring k).staged else (s.ring j).active := by rw [State.ring_setRing]; split <;> rfl
  have on (j : Fin 64) (hj : j ≠ k) (on : ((s.setRing k (s.ring k).enabled).ring j).state ≠ .off) :
      (s.ring j).state ≠ .off := by rwa [State.ring_setRing, if_neg hj] at on
  refine ⟨fun j onj => ?_, fun i j hij oni onj => ?_⟩
  · rw [active]
    split
    · exact stop
    · exact below j (on j ‹_› onj)
  · rw [active, active]
    split_ifs with hi hj hj
    · exact absurd (hi.trans hj.symm) hij
    · exact free j (on j hj onj)
    · rw [Geometry.overlaps_comm]; exact free i (on i hi oni)
    · exact apart i j hij (on i hi oni) (on j hj onj)

theorem State.RingMove.regionsOk (s t : State) (h : s.RegionsOk) (move : s.RingMove t) : t.RegionsOk := by
  cases move with
  | stage rings _ capacity =>
    refine h.of_shrink capacity (fun k on => ?_)
    obtain ⟨g, x, c, e, -⟩ := rings k
    rw [e] at on ⊢
    exact ⟨on, rfl⟩
  | expire now w sl rings _ capacity =>
    refine h.of_shrink capacity (fun k on => ?_)
    obtain ⟨-, active, off⟩ := (s.ring k).expire_records now w sl
    rw [rings k] at on ⊢
    exact ⟨mt off.mpr on, active⟩
  | softReset => exact .of_off (fun k => by rw [State.completeSoftReset_ring]; rfl)
  | trackWrite data on =>
    obtain ⟨state, active⟩ := s.trackWrite_state _ _ _
    exact (s.trackWrite_keeps _ _ _).regionsOk h state active
  | trackRead on =>
    obtain ⟨state, active⟩ := s.trackRead_state _ _
    exact (s.trackRead_keeps _ _).regionsOk h state active
  | enable k => exact State.enableRing_regionsOk k h
  | disable k =>
    unfold State.disableRing
    split
    · refine h.of_shrink rfl (fun j on => ?_)
      rw [State.ring_setRing] at on ⊢
      split at on
      · exact absurd rfl on
      · rw [if_neg ‹_›]; exact ⟨on, rfl⟩
    · exact h

/-! ### INIT and the link (R55, R135, R140, R154) -/

section
variable {s t u : State}

/-- Nothing is under way and no timer runs. -/
structure State.Inert (s : State) : Prop where
  down : s.clp.state = .down
  tx : s.clp.tx = .idle
  rq : s.rfe.rq = []
  epochTimer : s.sje.timer = none
  refreshTimer : s.dcc.refreshTimer = none
  quietTimer : s.dcc.quietTimer = .stopped
  operation : s.operation? = none

theorem State.InitOk.inert (init : s.InitOk) (link : s.LinkOk) (h : s.dcc.state = .init) : s.Inert := by
  obtain ⟨dcc, -, down, rfe, timer, -⟩ := init.2 h
  obtain ⟨-, tx, -⟩ := link (by rw [down]; exact nofun)
  have operation : s.operation? = none := by unfold State.operation?; rw [dcc]; rfl
  exact ⟨down, tx, by rw [rfe]; rfl, timer, by rw [dcc]; rfl, by rw [dcc]; rfl, operation⟩

/-- Outside INIT, and not going there, there is nothing to keep. -/
theorem State.InitOk.of_not_init (init : s.InitOk) (h : s.dcc.state ≠ .init) (rstnLow : u.rstnLow = s.rstnLow)
    (h' : u.dcc.state ≠ .init) : u.InitOk :=
  ⟨fun low => absurd (init.1 (rstnLow.symm.trans low)) h, fun hi => absurd hi h'⟩

/-- The choices that follow an event change nothing in INIT. -/
theorem State.Chooses.initOk (c : s.Chooses t) (init : s.InitOk) : t.InitOk := by
  refine ⟨fun low => c.init.mpr (init.1 (c.rstnLow.symm.trans low)), fun hi => ?_⟩
  have hs := c.init.mp hi
  obtain ⟨dcc, slots, down, rfe, timer, off⟩ := init.2 hs
  obtain ⟨dcc', hst', state'⟩ := c.inInit hs
  obtain ⟨rfe', -, -⟩ := c.notUp (by rw [down]; exact nofun)
  exact ⟨dcc'.trans dcc, by rw [hst']; exact slots, state'.trans down, rfe'.trans rfe, by rw [c.sje]; exact timer,
    fun k => by rw [State.ring_of_rings c.rings]; exact off k⟩

/-- The choices that follow an event move no request and no frame outside UP. -/
theorem State.Chooses.linkOk (c : s.Chooses t) (link : s.LinkOk) : t.LinkOk := by
  intro notUp
  have hs := mt c.up.mpr notUp
  obtain ⟨rfe, tx, owed⟩ := link hs
  obtain ⟨rfe', tx', owed'⟩ := c.notUp hs
  exact ⟨rfe'.trans rfe, tx'.trans tx, owed'.trans owed⟩

theorem State.LinkOk.of_up (h : u.clp.state = .up) : u.LinkOk := fun notUp => absurd h notUp

/-- The link's way to DOWN leaves it clean: a drop empties it, and outside UP it is empty (R154). -/
theorem State.LinkOk.linkDown (link : s.LinkOk) : s.linkDown.LinkOk := by
  rcases s.linkDown_cases with ⟨-, h⟩ | ⟨training, h⟩ | ⟨-, h⟩ <;> rw [h]
  · exact fun _ => ⟨rfl, rfl, rfl⟩
  · exact fun _ => link (by rw [training]; exact nofun)
  · exact link

theorem State.InitOk.state_of_not_down (init : s.InitOk) (h : s.clp.state ≠ .down) : s.dcc.state ≠ .init := by
  intro hi
  obtain ⟨-, -, down, -⟩ := init.2 hi
  exact h down

theorem State.InitOk.linkDown (init : s.InitOk) : s.linkDown.InitOk := by
  have notInit (h : s.clp.state ≠ .down) : s.dcc.state ≠ .init := init.state_of_not_down h
  rcases s.linkDown_cases with ⟨up, h⟩ | ⟨training, h⟩ | ⟨-, h⟩ <;> rw [h]
  · have := notInit (by rw [up]; exact nofun)
    exact init.of_not_init this rfl this
  · have := notInit (by rw [training]; exact nofun)
    exact init.of_not_init this rfl this
  · exact init

/-- The completion of a retirement leaves an empty front end empty. -/
theorem State.completeRetirement_rfe (n : Nat) (h : s.rfe = .reset) : (s.completeRetirement n).rfe = .reset := by
  have freed (t : State) (ht : t.rfe = .reset) : (t.freeSlot n).checkFlush.rfe = .reset := by
    have : (t.freeSlot n).rfe = .reset := by
      unfold State.freeSlot State.voidClaims
      dsimp only
      rw [ht]
      rfl
    rcases (t.freeSlot n).checkFlush_cases with ⟨-, -, e⟩ | ⟨-, e⟩ <;> rw [e]
    · exact this
    · exact this
  cases hx : s.hst.slot? n with
  | none => unfold State.completeRetirement; rw [hx]; exact h
  | some x =>
    rcases State.completeRetirement_cases hx with ⟨-, e⟩ | ⟨-, e⟩ | ⟨-, e⟩ <;> rw [e]
    · exact freed _ h
    · exact h
    · exact h

/-- The link stays UP through a frame's reception. -/
theorem State.receiveFrame_clp_state (s : State) (frame : List Byte) :
    (s.receiveFrame frame).clp.state = s.clp.state ∧ (s.receiveFrame frame).rstnLow = s.rstnLow ∧
      (s.receiveFrame frame).dcc.state = s.dcc.state := by
  rcases s.receiveFrame_cases frame with ⟨-, e⟩ | ⟨r, -, ⟨-, e⟩ | ⟨-, e⟩⟩ <;> rw [e] <;> exact ⟨rfl, rfl, rfl⟩

/-- The sending of a response leaves the link's state, the reset pin and the channel's state. -/
theorem State.sendResponse_clp_state (s : State) (r : Response) :
    (s.sendResponse r).clp.state = s.clp.state ∧ (s.sendResponse r).rstnLow = s.rstnLow ∧
      (s.sendResponse r).dcc.state = s.dcc.state := by
  unfold State.sendResponse
  cases r.claim with
  | some slot =>
    have work := (s.freeResponse r).sendClaim_works slot
    dsimp only
    rw [work.clp, work.rstnLow, work.channel]
    exact ⟨rfl, rfl, rfl⟩
  | none => exact ⟨rfl, rfl, rfl⟩

/-- Every event keeps the link clean: those that need requests or a frame under way occur in UP alone. -/
theorem State.Happens.linkOk (h : s.Happens u) (link : s.LinkOk) : u.LinkOk := by
  have up_of_tx (tx : s.clp.tx ≠ .idle) : s.clp.state = .up := by
    by_contra notUp
    obtain ⟨-, idle, -⟩ := link notUp
    exact tx idle
  cases h with
  | endOfInit | laneLock | quietExpiry | wakingEnd | writeCompletion | refreshCompletion => exact link
  | trainingSuccess => exact .of_up rfl
  | laneLockLoss lane => exact State.LinkOk.linkDown (s := { s with clp.lanes := clearLane s.clp.lanes lane }) link
  | linkReset => exact State.LinkOk.linkDown link
  | requestFrame up frame => exact .of_up ((s.receiveFrame_clp_state frame).1.trans up)
  | take hq e =>
    have up : s.clp.state = .up := by
      by_contra notUp
      rw [(link notUp).1] at hq
      cases hq
    exact .of_up ((congrArg LinkPort.state (State.takeRequest_works e).clp).trans up)
  | epochExpiry => rw [State.expireEpoch_eq]; exact link
  | refreshExpiry => unfold State.expireRefresh; split <;> exact link
  | @readCompletion e dropped _ =>
    unfold State.completeRead
    split
    · exact link
    · rename_i lands
      have up : s.clp.state = .up := by
        by_contra notUp
        rw [(link notUp).1] at lands
        exact lands (Bool.or_true _)
      exact .of_up up
  | retirementCompletion =>
    have work := State.completeRetirement_works
    intro notUp
    unfold State.completeRetirementWrite at notUp ⊢
    rw [(work _ _).clp] at notUp ⊢
    obtain ⟨rfe, tx, owed⟩ := link notUp
    exact ⟨State.completeRetirement_rfe _ rfe, tx, owed⟩
  | responseSent r tx =>
    exact .of_up ((s.sendResponse_clp_state r).1.trans (up_of_tx (by rw [tx]; exact nofun)))
  | frameSent tx => exact .of_up (up_of_tx tx)

/-- Every event but the end of INIT and those of the lanes needs something that INIT does not have. -/
theorem State.Happens.initOk (h : s.Happens u) (init : s.InitOk) (link : s.LinkOk) : u.InitOk := by
  have inert := init.inert link
  cases h with
  | endOfInit rstn => exact ⟨fun low => absurd (low.symm.trans rstn) nofun, nofun⟩
  | laneLock => exact init
  | laneLockLoss lane => exact State.InitOk.linkDown (s := { s with clp.lanes := clearLane s.clp.lanes lane }) init
  | linkReset => exact State.InitOk.linkDown init
  | trainingSuccess training =>
    have notInit : s.dcc.state ≠ .init := fun hi => absurd (training.symm.trans (inert hi).down) nofun
    exact init.of_not_init notInit rfl notInit
  | requestFrame up frame =>
    have notInit : s.dcc.state ≠ .init := fun hi => absurd (up.symm.trans (inert hi).down) nofun
    obtain ⟨-, rstnLow, channel⟩ := s.receiveFrame_clp_state frame
    exact init.of_not_init notInit rstnLow (channel.trans_ne notInit)
  | take hq e =>
    have notInit : s.dcc.state ≠ .init := fun hi => absurd (hq.symm.trans (inert hi).rq) nofun
    have work := State.takeRequest_works e
    exact init.of_not_init notInit work.rstnLow (work.channel.trans_ne notInit)
  | epochExpiry timer =>
    have notInit : s.dcc.state ≠ .init := fun hi => by rw [(inert hi).epochTimer] at timer; cases timer
    rw [State.expireEpoch_eq]
    exact init.of_not_init notInit rfl notInit
  | refreshExpiry timer =>
    have notInit : s.dcc.state ≠ .init := fun hi => by rw [(inert hi).refreshTimer] at timer; cases timer
    unfold State.expireRefresh
    split <;> exact init.of_not_init notInit rfl notInit
  | quietExpiry timer =>
    have notInit : s.dcc.state ≠ .init := fun hi => by rw [(inert hi).quietTimer] at timer; cases timer
    exact init.of_not_init notInit rfl notInit
  | wakingEnd waking => exact init.of_not_init (by rw [waking]; exact nofun) rfl nofun
  | readCompletion op =>
    have notInit : s.dcc.state ≠ .init := fun hi => absurd (op.symm.trans (inert hi).operation) nofun
    unfold State.completeRead
    split <;> exact init.of_not_init notInit rfl notInit
  | writeCompletion op | refreshCompletion op =>
    have notInit : s.dcc.state ≠ .init := fun hi => absurd (op.symm.trans (inert hi).operation) nofun
    exact init.of_not_init notInit rfl notInit
  | retirementCompletion op =>
    have notInit : s.dcc.state ≠ .init := fun hi => absurd (op.symm.trans (inert hi).operation) nofun
    have work := State.completeRetirement_works
    exact init.of_not_init notInit (work _ _).rstnLow ((work _ _).channel.trans_ne notInit)
  | responseSent r tx =>
    have notInit : s.dcc.state ≠ .init := fun hi => absurd (tx.symm.trans (inert hi).tx) nofun
    obtain ⟨-, rstnLow, channel⟩ := s.sendResponse_clp_state r
    exact init.of_not_init notInit rstnLow (channel.trans_ne notInit)
  | frameSent tx =>
    have notInit : s.dcc.state ≠ .init := fun hi => tx (inert hi).tx
    exact init.of_not_init notInit rfl notInit

end

theorem State.reset_initOk : State.reset.InitOk :=
  ⟨fun _ => rfl, fun _ => ⟨rfl, rfl, rfl, rfl, rfl, fun k => by rw [State.reset_ring]; rfl⟩⟩

theorem State.reset_linkOk : State.reset.LinkOk := fun _ => ⟨rfl, rfl, rfl⟩

/-- Every run of a command keeps INIT and the link clean. -/
theorem State.Runs.init_link_ok {s t : State} (run : s.Runs t) (init : s.InitOk) (link : s.LinkOk) :
    t.InitOk ∧ t.LinkOk := by
  cases run with
  | same => exact ⟨init, link⟩
  | @settles u h =>
    have choices := u.settle_chooses
    exact ⟨choices.initOk (h.initOk init link), choices.linkOk (h.linkOk link)⟩
  | powerOnReset => exact ⟨State.reset_initOk, State.reset_linkOk⟩
  | rstnRise capsel low =>
    obtain ⟨dcc, slots, down, rfe, timer, off⟩ := init.2 (init.1 low)
    exact ⟨⟨nofun, fun _ => ⟨by dsimp only; rw [dcc]; rfl, slots, down, rfe, timer, off⟩⟩, link⟩
  | trainingFailure attempt training =>
    have notInit := init.state_of_not_down (by rw [training]; exact nofun)
    exact ⟨init.of_not_init notInit rfl notInit, link⟩
  | pulseEnd => exact ⟨init, link⟩

/-- Every run keeps active regions apart; at RSTN's rise, which samples CAP, there are none. -/
theorem State.Runs.regionsOk {s t : State} (run : s.Runs t) (init : s.InitOk) (regions : s.RegionsOk) : t.RegionsOk := by
  refine run.keeps_of_moves State.RingMove.regionsOk (fun _ _ => .of_off (fun k => ?_)) (fun _ low _ => ?_) regions
  · exact (congrArg Ring.state (State.reset_ring k)).trans rfl
  · obtain ⟨-, -, -, -, -, off⟩ := init.2 (init.1 low)
    exact .of_off off

/-- Settles O52: INIT and the link keep each other clean, and INIT the regions. -/
theorem initAndLinkStayClean : Obligations.InitAndLinkStayClean := by
  intro s t init link regions e
  refine step_keeps (I := fun s => s.InitOk ∧ s.LinkOk ∧ s.RegionsOk) (fun _ _ h => h) ?_ s t ⟨init, link, regions⟩ e
  rintro s t ⟨init, link, regions⟩ run
  obtain ⟨init', link'⟩ := run.init_link_ok init link
  exact ⟨init', link', run.regionsOk init regions⟩

/-! ### The part in a power-on reset -/

/-- Settles O55: the store, the queues and the front end are empty, and the rings and settings at their reset values. -/
theorem resetMeetsTheInvariants : Obligations.ResetMeetsTheInvariants := by
  have store : State.reset.StoreOk := ⟨⟨List.nodup_nil, List.nodup_nil, nofun⟩, ⟨nofun, nofun, nofun⟩, nofun⟩
  have requests : State.reset.RequestsOk :=
    ⟨⟨rfl, List.nodup_nil⟩, ⟨List.nodup_nil, nofun, List.nodup_nil, nofun, nofun⟩, ⟨List.nodup_nil, nofun, nofun⟩,
      ⟨nofun, nofun⟩, List.Pairwise.nil, List.Pairwise.nil, nofun, nofun, nofun⟩
  have sizes : State.reset.SizesOk := ⟨nofun, nofun, nofun, nofun, nofun, nofun, nofun⟩
  have regions : State.reset.RegionsOk := .of_off (fun k => by rw [State.reset_ring]; rfl)
  have balance : State.reset.BalanceOk := by
    simp [State.BalanceOk, State.admittedSum, State.reset, Ring.reset, RingCounters.zero, DeviceCounters.zero,
      HoldStore.fill, HoldStore.reset]
  exact ⟨List.Pairwise.nil, State.reset_ringsOk, State.reset_poolOk, store, requests, sizes, State.reset_initOk,
    State.reset_linkOk, regions, by decide, by decide, balance⟩

end Sys2Proof.Machine
end

section
/-! PROOFS. The enable words: the validation of an enable, and the take of a WORD_WRITE that carries the word. Settles
O27. -/

namespace Sys2Proof.Machine

/-- The tests of an enable, written out (R36). -/
theorem State.refusesEnable_iff (s : State) (k : Fin 64) : s.refusesEnable k = true ↔
    (s.ring k).staged.length < 2 ∨ 65536 < (s.ring k).staged.length ∨ 255 < (s.ring k).staged.lead ∨
      s.capacity.cells - 128 < (s.ring k).staged.base + (s.ring k).staged.lead + (s.ring k).staged.length ∨
      ∃ j : Fin 64, (s.ring j).state ≠ .off ∧ (s.ring k).staged.base < (s.ring j).active.stop ∧
        (s.ring j).active.base < (s.ring k).staged.stop := by
  simp only [State.refusesEnable, Bool.or_eq_true, decide_eq_true_eq, List.any_eq_true, List.mem_finRange, true_and,
    Bool.and_eq_true, Ring.isActive_iff, Geometry.overlaps, or_assoc]
  rfl

section
variable {s : State} {k : Fin 64}

/-- An enable word of 1 has no effect on an active ring (R35). -/
theorem State.enableRing_of_active (on : (s.ring k).state ≠ .off) : s.enableRing k = s :=
  if_pos (Ring.isActive_iff.mpr on)

theorem State.enableRing_of_refused (off : (s.ring k).state = .off) (refused : s.refusesEnable k = true) :
    s.enableRing k = s.raiseOn (clampGroup (s.ring k).stagedSettings.alertGroup) .ringRefused := by
  unfold State.enableRing
  rw [if_neg (fun on => Ring.isActive_iff.mp on off), if_pos refused]

theorem State.enableRing_of_passes (off : (s.ring k).state = .off) (passes : ¬s.refusesEnable k = true) :
    s.enableRing k = s.setRing k (s.ring k).enabled := by
  unfold State.enableRing
  rw [if_neg (fun on => Ring.isActive_iff.mp on off), if_neg passes]

/-- An enable word of 0 has no effect on an OFF ring (R35). -/
theorem State.disableRing_of_off (off : (s.ring k).state = .off) : s.disableRing k = s :=
  if_neg (fun on => Ring.isActive_iff.mp on off)

theorem State.disableRing_of_active (on : (s.ring k).state ≠ .off) : s.disableRing k =
    { s with poolFree := s.poolFree + (s.ring k).records.length }.setRing k (s.ring k).disabled :=
  if_pos (Ring.isActive_iff.mpr on)

end

/-- The take of a WORD_WRITE that carries the enable word of ring `k`, under each of the commands it can be taken by
(R35, R158, R159). -/
theorem exec_enableWord {s : State} {k : Fin 64} {d : List Byte} {rest : List Request}
    (room : s.dcc.writeQ.length < 32)
    (head : s.rfe.rq =
      .wordWrite (s.capacity.cells - 32 + (1 + k.val / 4)) (8 * (k.val % 4) + 7) d :: rest) :
    let q := s.queuedWrite rest (s.capacity.cells - 32 + (1 + k.val / 4)) (.partialWord (8 * (k.val % 4) + 7) d)
    exec .wordWrite s = .next (q.writeEnable k d).settle ∧
      (leNat d = 1 → exec .ringEnable s = .next (q.enableRing k).settle) ∧
      (leNat d = 0 → exec .ringDisable s = .next (q.disableRing k).settle) := by
  intro q
  have below : 1 + k.val / 4 < 32 := by omega
  have take : s.takeHead = (q.writeEnable k d).settle := by
    rw [State.takeHead_controlWord below room head, controlWord_enable]
    rfl
  have carries (value : Nat) : s.headCarries (isEnableWord value) = (leNat d == value) := by
    rw [State.headCarries_controlWord below head, controlWord_enable]
    rfl
  refine ⟨?_, fun one => ?_, fun zero => ?_⟩
  · simp only [exec, execWordWrite, State.takeIf, State.headIs, head, Request.isWordWrite, if_true, take]
  · simp only [exec, execRingEnable, State.takeIf, carries, one, beq_self_eq_true, if_true, take]
    unfold State.writeEnable
    rw [if_pos one]
  · simp only [exec, execRingDisable, State.takeIf, carries, zero, beq_self_eq_true, if_true, take]
    unfold State.writeEnable
    rw [if_neg (by omega), if_pos zero]

/-- Settles O27: the take queues the write and decodes its word, and the word acts by the ring's state at the take. -/
theorem enableWordsFollowTheirTable : Obligations.EnableWordsFollowTheirTable := by
  refine ⟨fun _ => rfl, fun s k d rest room => ?_⟩
  intro cell w q r g x th refused head
  obtain ⟨word, enable, disable⟩ := exec_enableWord room head
  have refuses : q.refusesEnable k = true ↔ refused := q.refusesEnable_iff k
  refine ⟨fun not0 not1 => ?_, fun one => ⟨fun on => ?_, fun off hr => ?_, fun off hr => ?_⟩,
    fun zero => ⟨fun off => ?_, fun on => ?_⟩⟩
  · rw [word]
    unfold State.writeEnable
    rw [if_neg not1, if_neg not0]
  · rw [enable one, State.enableRing_of_active (s := q) on]
  · rw [enable one, State.enableRing_of_refused (s := q) off (refuses.mpr hr)]
    rfl
  · rw [enable one, State.enableRing_of_passes (s := q) off (mt refuses.mp hr)]
    rfl
  · rw [disable zero, State.disableRing_of_off (s := q) off]
  · rw [disable zero, State.disableRing_of_active (s := q) on]
    rfl

end Sys2Proof.Machine
end

section
/-! PROOFS. Every step keeps the queues, the counts and the device settings within their limits: each part of the state
keeps its own. In the proofs `{ h with … }` lists the limits that an operation touches. Settles O53. -/

namespace Sys2Proof.Machine

/-! ### The limits, part by part -/

/-- The limits of the channel: its queues, the refresh backlog, the quiet delay and the refresh interval (R125, R126,
R133, R136). -/
structure Channel.InLimits (c : Channel) : Prop where
  readQ : c.readQ.length ≤ 32
  writeQ : c.writeQ.length ≤ 32
  backlog : c.backlog ≤ 8
  quietDelay : c.quietDelay ≤ 255
  interval : 10 ≤ c.refreshInterval ∧ c.refreshInterval ≤ 100

/-- The ranges of the store settings (R99). -/
structure HoldStore.InLimits (h : HoldStore) : Prop where
  lowMark : 1 ≤ h.lowMark ∧ h.lowMark ≤ 2048
  highMark : h.highMark ≤ 2048
  ageLimit : 1 ≤ h.ageLimit ∧ h.ageLimit ≤ 255

/-- The ranges of EL and SL (R54, R59). -/
structure Estimator.InLimits (e : Estimator) : Prop where
  el : 2 ≤ e.el ∧ e.el ≤ 1000
  sl : 1 ≤ e.sl ∧ e.sl ≤ 255

/-- The limits of every part. -/
structure State.InLimits (s : State) : Prop where
  rq : s.rfe.rq.length ≤ 64
  owed : s.clp.owed ≤ 64
  channel : s.dcc.InLimits
  store : s.hst.InLimits
  estimator : s.sje.InLimits
  window : 1 ≤ s.fanInWindow ∧ s.fanInWindow ≤ 255

/-- The parts' limits are those of the statement. -/
theorem State.inLimits_iff {s : State} : s.InLimits ↔ s.QueuesOk ∧ s.SettingsOk := by
  constructor
  · rintro ⟨rq, owed, ⟨readQ, writeQ, backlog, quiet, ri⟩, ⟨low, high, age⟩, ⟨el, sl⟩, w⟩
    exact ⟨⟨rq, readQ, writeQ, owed, backlog⟩, el.1, el.2, sl.1, sl.2, w.1, w.2, low.1, low.2, high, age.1, age.2,
      quiet, ri⟩
  · rintro ⟨⟨rq, readQ, writeQ, owed, backlog⟩, el, el', sl, sl', w, w', low, low', high, age, age', quiet, ri⟩
    exact ⟨rq, owed, ⟨readQ, writeQ, backlog, quiet, ri⟩, ⟨⟨low, low'⟩, high, age, age'⟩, ⟨⟨el, el'⟩, sl, sl'⟩, w, w'⟩

theorem clampRefresh_range (n : Nat) : 10 ≤ clampRefresh n ∧ clampRefresh n ≤ 100 := by unfold clampRefresh; omega

theorem Channel.reset_inLimits : Channel.reset.InLimits := by constructor <;> decide

theorem HoldStore.reset_inLimits : HoldStore.reset.InLimits := by constructor <;> decide

theorem State.reset_inLimits : State.reset.InLimits :=
  ⟨Nat.zero_le _, Nat.zero_le _, Channel.reset_inLimits, HoldStore.reset_inLimits, by constructor <;> decide, by decide⟩

/-- An operation that begins lengthens no queue. -/
theorem Channel.InLimits.of_keeps {c d : Channel} (h : c.InLimits) (keeps : c.BeginKeeps d) : d.InLimits where
  readQ := keeps.readQ.length_le.trans h.readQ
  writeQ := keeps.writeQ.length_le.trans h.writeQ
  backlog := keeps.backlog.trans_le h.backlog
  quietDelay := keeps.quietDelay.trans_le h.quietDelay
  interval := by rw [keeps.refreshInterval]; exact h.interval

theorem HoldStore.configure_inLimits (holdEnable low high age : Nat) (h : HoldStore) :
    (h.configure holdEnable low high age).InLimits := by
  constructor <;> dsimp only [HoldStore.configure] <;> omega

section
variable {s t : State}

/-! ### The choices that follow an event -/

theorem State.InLimits.startTraining (h : s.InLimits) : s.startTraining.InLimits := by
  rcases s.startTraining_cases with e | ⟨-, -, -, e⟩ <;> rw [e]
  · exact h
  · exact { h with }

theorem State.InLimits.wake (h : s.InLimits) : s.wake.InLimits := by
  rcases s.wake_cases with e | ⟨-, e⟩ <;> rw [e]
  · exact h
  · exact { h with channel := { h.channel with } }

theorem State.InLimits.enterQuiet (h : s.InLimits) : s.enterQuiet.InLimits := by
  rcases s.enterQuiet_cases with e | ⟨-, -, e⟩ <;> rw [e]
  · exact h
  · exact { h with channel := { h.channel with } }

theorem State.InLimits.retire (h : s.InLimits) (u : Urgency) : (s.retire u).InLimits := by
  rcases s.retire_cases u with ⟨r, -, e⟩ | ⟨x, r, -, -, -, -, -, e⟩ | ⟨-, -, e⟩ <;> rw [e]
  · exact { h with channel := h.channel.of_keeps (s.dcc.beginRetirement_keeps r) }
  · have inHand : Channel.InLimits { s.dcc with inHand := some r } := { h.channel with }
    exact { h with channel := inHand.of_keeps (Channel.beginRetirement_keeps _ r), store := { h.store with } }
  · exact h

/-- The arbiter lowers the backlog or shortens a queue (R124, R134). -/
theorem State.InLimits.arbitrate (h : s.InLimits) : s.arbitrate.InLimits := by
  rcases s.arbitrate_cases with e | ⟨-, -, ⟨-, e⟩ | ⟨u, -, -, e⟩ | ⟨r, -, e⟩ | ⟨w, ws, -, -, e⟩⟩ <;> rw [e]
  · exact h
  · exact { h with channel := { h.channel with backlog := (Nat.sub_le _ _).trans h.channel.backlog } }
  · exact h.retire u
  · exact { h with channel := h.channel.of_keeps (s.dcc.beginRead_keeps r) }
  · exact { h with channel := h.channel.of_keeps (s.dcc.beginWrite_keeps w) }

/-- A CREDIT frame takes the whole owed count with it (R143). -/
theorem State.InLimits.transmit (h : s.InLimits) : s.transmit.InLimits := by
  rcases s.transmit_cases with e | ⟨-, -, ⟨-, e⟩ | ⟨n, rest, -, e⟩⟩ <;> rw [e]
  · exact h
  · exact { h with owed := Nat.zero_le _ }
  · rcases s.startResponse_cases n rest with e | ⟨r, -, -, e⟩ <;> rw [e]
    · exact h
    · exact { h with }

theorem State.InLimits.settle (h : s.InLimits) : s.settle.InLimits :=
  h.startTraining.wake.arbitrate.enterQuiet.transmit

/-! ### Operations of the store, the channel and the link -/

theorem State.InLimits.completeSoftReset (h : s.InLimits) : s.completeSoftReset.InLimits where
  rq := h.rq
  owed := h.owed
  channel := { h.channel with quietDelay := Nat.zero_le _ }
  store := { HoldStore.reset_inLimits with }
  estimator := ⟨State.reset_inLimits.estimator.el, State.reset_inLimits.estimator.sl⟩
  window := State.reset_inLimits.window

theorem State.InLimits.checkFlush (h : s.InLimits) : s.checkFlush.InLimits := by
  rcases s.checkFlush_cases with ⟨-, -, e⟩ | ⟨-, e⟩ <;> rw [e]
  · exact h.completeSoftReset
  · exact h

theorem State.InLimits.freeSlot (h : s.InLimits) (n : Nat) : (s.freeSlot n).InLimits :=
  { h with store := { h.store with } }

theorem State.InLimits.sendClaim (h : s.InLimits) (n : Nat) : (s.sendClaim n).InLimits := by
  cases hx : s.hst.slot? n with
  | none => unfold State.sendClaim; rw [hx]; exact h
  | some x =>
    rcases State.sendClaim_cases hx with ⟨-, -, e⟩ | ⟨-, e⟩ <;> rw [e]
    · have counted : State.InLimits { s with counters.elided := bump s.counters.elided 1 } := { h with }
      exact (counted.freeSlot n).checkFlush
    · exact { h with store := { h.store with } }

theorem State.InLimits.completeRetirement (h : s.InLimits) (n : Nat) : (s.completeRetirement n).InLimits := by
  cases hx : s.hst.slot? n with
  | none => unfold State.completeRetirement; rw [hx]; exact h
  | some x =>
    rcases State.completeRetirement_cases hx with ⟨-, e⟩ | ⟨-, e⟩ | ⟨-, e⟩ <;> rw [e]
    · have counted : State.InLimits { s with counters.retired := bump s.counters.retired 1 } := { h with }
      exact (counted.freeSlot n).checkFlush
    · exact { h with store := { h.store with } }
    · exact h

/-- The refresh timer is loaded with a clamped interval (R133). -/
theorem State.InLimits.loadRefresh (h : s.InLimits) : s.loadRefresh.InLimits :=
  { h with channel := { h.channel with interval := clampRefresh_range _ } }

theorem State.InLimits.enterRun (h : s.InLimits) : s.enterRun.InLimits :=
  { h with channel := { h.channel with backlog := Nat.zero_le _, interval := clampRefresh_range _ } }

/-- The backlog rises below 8 alone (R133). -/
theorem State.InLimits.expireRefresh (h : s.InLimits) : s.expireRefresh.InLimits := by
  unfold State.expireRefresh
  split
  · rename_i below
    exact State.InLimits.loadRefresh { h with channel := { h.channel with backlog := below } }
  · exact State.InLimits.loadRefresh { h with }

/-- EL, SL and W are taken with their clamps (R54, R59, R44). -/
theorem State.InLimits.expireEpoch (h : s.InLimits) : s.expireEpoch.InLimits := by
  rw [State.expireEpoch_eq]
  refine { h with store := { h.store with }, estimator := ⟨?_, ?_⟩, window := ?_ }
  · dsimp only [clampEpochLength]; omega
  · dsimp only [clampStallLimit]; omega
  · dsimp only [clampWindow]; omega

/-- A link drop empties the Request Queue and the read queue, and no credit is owed after it (R154, R137). -/
theorem State.InLimits.linkDown (h : s.InLimits) : s.linkDown.InLimits := by
  rcases s.linkDown_cases with ⟨-, e⟩ | ⟨-, e⟩ | ⟨-, e⟩ <;> rw [e]
  · exact { h with
      rq := Nat.zero_le _, owed := Nat.zero_le _, channel := { h.channel with readQ := Nat.zero_le _ } }
  · exact { h with }
  · exact h

/-- A frame is accepted only while the queue holds fewer than 64 requests, and credits are owed up to 64 (R142, R143). -/
theorem State.InLimits.receiveFrame (h : s.InLimits) (frame : List Byte) : (s.receiveFrame frame).InLimits := by
  rcases s.receiveFrame_cases frame with ⟨-, e⟩ | ⟨r, -, ⟨room, e⟩ | ⟨-, e⟩⟩ <;> rw [e]
  · exact { h with owed := Nat.min_le_left _ _ }
  · exact { h with rq := List.length_append.trans_le room, channel := { h.channel with } }
  · exact { h with }

/-! ### Control words -/

theorem State.InLimits.writeControl (h : s.InLimits) (c : ControlWord) (w : List Byte) :
    (s.writeControl c w).InLimits := by
  cases c with
  | epochSettings | alertLine | ring | flagClear | plain => exact { h with }
  | refreshQuiet => exact { h with channel := { h.channel with quietDelay := Nat.min_le_left _ _ } }
  | storeSettings =>
    unfold State.writeControl State.writeStoreSettings
    dsimp only
    rw [State.raiseStoreMust_eq]
    exact { h with store := HoldStore.configure_inLimits _ _ _ _ _ }
  | softReset =>
    unfold State.writeControl State.writeSoftReset State.startSoftReset
    dsimp only
    split_ifs
    · exact h
    · exact State.InLimits.checkFlush { h with store := { h.store with } }
    · exact h
  | enable k =>
    unfold State.writeControl State.writeEnable State.enableRing State.disableRing
    dsimp only
    split_ifs <;> exact { h with }
  | counterClear =>
    unfold State.writeControl State.writeCounterClear
    dsimp only
    split_ifs <;> exact { h with }

theorem State.InLimits.writeControlCell (h : s.InLimits) (n : Nat) (data : List Byte) :
    (s.writeControlCell n data).InLimits := by
  unfold State.writeControlCell
  induction List.range 32 generalizing s with
  | nil => exact h
  | cons w ws ih => exact ih (h.writeControl _ _)

/-! ### Takes -/

/-- A taken head is owed one credit, up to 64 (R143, R144). -/
theorem State.InLimits.popHead (h : s.InLimits) {r : Request} {rest : List Request} (head : s.rfe.rq = r :: rest) :
    (s.popHead rest).InLimits := by
  refine { h with rq := ?_, owed := Nat.min_le_left _ _ }
  have len := h.rq
  rw [head, List.length_cons] at len
  exact Nat.le_of_succ_le len

/-- A write joins the write queue below 32 entries alone (R126). -/
theorem State.InLimits.queueWrite (h : s.InLimits) {cell : Nat} {w : WriteData} (e : s.queueWrite cell w = some t) :
    t.InLimits := by
  obtain ⟨room, rfl⟩ := State.queueWrite_eq_some.mp e
  exact { h with channel := { h.channel with writeQ := List.length_append.trans_le room } }

/-- A read joins the read queue below 32 entries alone (R125). -/
theorem State.InLimits.takeDramRead (h : s.InLimits) {cell id : Nat} {tag : Tag} {x : Extent} {hr : HeaderRead}
    {boost : Bool} (e : s.takeDramRead cell id tag x hr boost = some t) : t.InLimits := by
  obtain ⟨room, rfl⟩ := State.queueRead_eq_some.mp e
  exact { h with channel := { h.channel with readQ := List.length_append.trans_le room } }

/-- Tracking at a ring position touches no part that has limits. -/
theorem State.InLimits.track {k : Fin 64} (h : s.InLimits) (keeps : State.TrackKeeps k s t) : t.InLimits where
  rq := by rw [keeps.rfe]; exact h.rq
  owed := by rw [keeps.clp]; exact h.owed
  channel := by rw [keeps.dcc]; exact h.channel
  store := by rw [keeps.hst]; exact h.store
  estimator := by rw [keeps.sje]; exact h.estimator
  window := by rw [keeps.fanInWindow]; exact h.window

theorem State.InLimits.overwrite (h : s.InLimits) (x : Slot) (data : List Byte) : (s.overwrite x data).InLimits := by
  refine { h with store := ?_ }
  rw [State.overwrite_hst]
  exact { h.store with }

theorem State.InLimits.admitOrBypass (h : s.InLimits) {k : Fin 64} {cell : Nat} {data : List Byte}
    (e : s.admitOrBypass k cell data = some t) : t.InLimits := by
  rcases s.admitOrBypass_cases k cell data e with ⟨n, -, -, rfl⟩ | ⟨-, room, rfl⟩
  · rw [State.admitCell_eq]
    exact { h with store := { h.store with } }
  · exact { h with channel := { h.channel with writeQ := List.length_append.trans_le room } }

theorem State.InLimits.takePlainWrite (h : s.InLimits) {cell : Nat} {data : List Byte}
    (e : s.takePlainWrite cell data = some t) : t.InLimits := by
  unfold State.takePlainWrite at e
  split at e
  · cases e; exact h.overwrite _ _
  · exact h.queueWrite e

theorem State.InLimits.takePositionWrite (h : s.InLimits) {k : Fin 64} {p cell : Nat} {data : List Byte}
    (e : s.takePositionWrite k p cell data = some t) : t.InLimits := by
  have tracked := h.track (s.trackWrite_keeps k p (summaryOf data))
  unfold State.takePositionWrite at e
  dsimp only at e
  split at e
  · cases e; exact tracked.overwrite _ _
  · exact tracked.admitOrBypass e

theorem State.InLimits.takeCellWrite (h : s.InLimits) {cell : Nat} {data : List Byte}
    (e : s.takeCellWrite cell data = some t) : t.InLimits := by
  unfold State.takeCellWrite at e
  split at e
  · cases e; exact { h with }
  · cases e; exact h
  · obtain ⟨u, hu, rfl⟩ := Option.map_eq_some_iff.mp e
    exact (h.queueWrite hu).writeControlCell _ _
  · split at e
    · exact h.takePositionWrite e
    · exact h.takePlainWrite e
    · exact h.takePlainWrite e

theorem State.InLimits.takeWordWrite (h : s.InLimits) {cell w : Nat} {data : List Byte}
    (e : s.takeWordWrite cell w data = some t) : t.InLimits := by
  unfold State.takeWordWrite at e
  split at e
  · cases e; exact { h with }
  · cases e; exact h
  · obtain ⟨u, hu, rfl⟩ := Option.map_eq_some_iff.mp e
    exact (h.queueWrite hu).writeControl _ _
  · split at e
    · cases e; exact { h with store := { h.store with } }
    · exact h.queueWrite e

theorem State.InLimits.takeBufferRead (h : s.InLimits) {cell id : Nat} {tag : Tag} {x : Extent} {hr : HeaderRead}
    {boost : Bool} (e : s.takeBufferRead cell id tag x hr boost = some t) : t.InLimits := by
  rcases State.takeBufferRead_cases e with ⟨slot, -, rfl⟩ | ⟨-, -, e⟩
  · exact { h with }
  · have counted : State.InLimits { s with counters.misses := bump s.counters.misses 1 } := { h with }
    exact counted.takeDramRead e

theorem State.InLimits.takeBufferCellRead (h : s.InLimits) {cell id : Nat} {tag : Tag}
    (e : s.takeBufferCellRead cell id tag = some t) : t.InLimits := by
  unfold State.takeBufferCellRead at e
  split at e
  · rename_i k p _
    exact (h.track (s.trackRead_keeps k p)).takeBufferRead e
  · exact h.takeBufferRead e
  · exact h.takeBufferRead e

theorem State.InLimits.takeCellRead (h : s.InLimits) {cell : Nat} {tag : Tag} (e : s.takeCellRead cell tag = some t) :
    t.InLimits := by
  unfold State.takeCellRead at e
  split at e
  · cases e
  split at e
  · cases e; exact { h with }
  split at e
  · cases e; exact { h with }
  · cases e; exact { h with }
  · exact h.takeDramRead e
  · exact h.takeBufferCellRead e

theorem State.InLimits.takeWordRead (h : s.InLimits) {cell w : Nat} {tag : Tag}
    (e : s.takeWordRead cell w tag = some t) : t.InLimits := by
  unfold State.takeWordRead at e
  split at e
  · cases e
  split at e
  · cases e; exact { h with }
  split at e
  · cases e; exact { h with }
  · cases e; exact { h with }
  · exact h.takeDramRead e
  · exact h.takeBufferRead e

theorem State.InLimits.takeRequest (h : s.InLimits) {r : Request} (e : s.takeRequest r = some t) : t.InLimits := by
  cases r with
  | cellWrite cell data => exact h.takeCellWrite e
  | wordWrite cell w data => exact h.takeWordWrite e
  | cellRead cell tag => exact h.takeCellRead e
  | wordRead cell w tag => exact h.takeWordRead e

/-! ### Events, runs and steps -/

theorem State.Happens.inLimits (event : s.Happens t) (h : s.InLimits) : t.InLimits := by
  cases event with
  | laneLock | frameSent => exact { h with }
  | writeCompletion | quietExpiry | refreshCompletion => exact { h with channel := { h.channel with } }
  | endOfInit => exact { h.enterRun with estimator := { h.estimator with } }
  | wakingEnd => exact h.enterRun
  | trainingSuccess => exact { h with owed := le_rfl }
  | laneLockLoss lane => exact State.InLimits.linkDown { h with }
  | linkReset => exact h.linkDown
  | requestFrame _ frame => exact h.receiveFrame frame
  | take head e => exact (h.popHead head).takeRequest e
  | epochExpiry => exact h.expireEpoch
  | refreshExpiry => exact h.expireRefresh
  | readCompletion =>
    unfold State.completeRead
    split <;> exact { h with channel := { h.channel with } }
  | retirementCompletion =>
    unfold State.completeRetirementWrite
    refine State.InLimits.completeRetirement ?_ _
    exact { h with channel := { h.channel with } }
  | responseSent r =>
    have freed : (s.freeResponse r).InLimits := { h with }
    unfold State.sendResponse
    split
    · exact freed.sendClaim _
    · exact freed

theorem State.Runs.inLimits (run : s.Runs t) (h : s.InLimits) : t.InLimits := by
  cases run with
  | same => exact h
  | settles event => exact (event.inLimits h).settle
  | powerOnReset => exact { State.reset_inLimits with }
  | rstnRise => exact { h with channel := { h.channel with } }
  | trainingFailure | pulseEnd => exact { h with }

end

/-- Settles O53: every event keeps every part within its limits, and so do the choices that follow it. -/
theorem limitsHold : Obligations.LimitsHold := by
  intro s t queues settings e
  exact State.inLimits_iff.mp (step_keeps (I := State.InLimits) (fun _ _ h => { h with })
    (fun _ _ h run => run.inLimits h) s t (State.inLimits_iff.mpr ⟨queues, settings⟩) e)

end Sys2Proof.Machine
end

section
/-! PROOFS. The expiry work of one ring, by the state it ends in, and its place in an epoch expiry. Settles O32. -/

namespace Sys2Proof.Machine

section
variable {r : Ring} (now : Epoch) (w : Nat) {sl : Nat}

/-- An OFF ring is passed over, but for the ageing of its Sender List (R46, R69). -/
theorem Ring.expire_of_off (off : r.state = .off) :
    r.expire now w sl = { r with senders := ageSenders r.senders now w } := by
  unfold Ring.expire
  rw [if_neg (fun on => Ring.isActive_iff.mp on off)]

theorem Ring.expire_of_active (on : r.state ≠ .off) :
    r.expire now w sl = { r.expiryWork now w sl with senders := ageSenders r.senders now w } := by
  unfold Ring.expire
  rw [if_pos (Ring.isActive_iff.mpr on)]

end

section
variable {r : Ring} {set : Settings} {sl f t : Nat}

theorem Ring.stalls_iff : r.stalls sl = true ↔ sl ≤ r.nextStall := decide_eq_true_iff

/-- D is held for a STALLED ring (R71). -/
theorem Ring.nextDrain_of_stalls (h : sl ≤ r.nextStall) : r.nextDrain set sl = r.drain := if_pos (Ring.stalls_iff.mpr h)

theorem Ring.nextDrain_of_moves (h : r.nextStall < sl) : r.nextDrain set sl = drainUpdate r.drain r.reads set.dw :=
  if_neg (mt Ring.stalls_iff.mp (Nat.not_le.mpr h))

theorem Ring.nextState_of_stalls (h : sl ≤ r.nextStall) : r.nextState set sl f t = .stalled :=
  if_pos (Ring.stalls_iff.mpr h)

/-- The tests for a ring that is not STALLED, in their order (R72). -/
theorem Ring.nextState_of_moves (h : r.nextStall < sl) : r.nextState set sl f t =
    if set.ft ≤ f ∧ set.qf ≤ r.occ then .incast else if set.tl / 2 ^ r.ramp ≤ t then .congested else .clear :=
  if_neg (mt Ring.stalls_iff.mp (Nat.not_le.mpr h))

end

/-- Settles O32: what follows the expiry leaves the rings, and each ring takes the case of its state and its stall count. -/
theorem epochExpiryWorksOnEveryRing : Obligations.EpochExpiryWorksOnEveryRing := by
  intro s timer
  have runs : exec .epochExpiry s = .next s.expireEpoch.settle :=
    congrArg Host.Outcome.next (if_pos (Option.isSome_iff_ne_none.mpr timer))
  refine ⟨_, runs, fun k => ?_⟩
  intro r v now young sl set incast
  have hv : v = r.expire now (clampWindow s.swu.stagedW) sl :=
    (State.ring_of_rings (State.settle_chooses _).rings k).trans (s.expireEpoch_ring k)
  refine ⟨fun off => hv.trans (Ring.expire_of_off now _ off), fun on => ?_⟩
  rw [Ring.expire_of_active now _ on] at hv
  have stall : v.stall = r.nextStall := congrArg Ring.stall hv
  have drain : v.drain = r.nextDrain set sl := congrArg Ring.drain hv
  have lastT : v.lastT = sojourn r.occ v.drain := by rw [drain]; exact congrArg Ring.lastT hv
  have state : v.state = r.nextState set sl young.length v.lastT := by
    rw [lastT, drain]; exact congrArg Ring.state hv
  have ramp : v.ramp = nextRamp r.ramp set.ml v.state := by rw [hv]; rfl
  refine ⟨?_, stall, lastT, fun stalled => ?_, fun moves => ⟨?_, fun h => ?_, fun h ht => ?_, fun h ht => ?_⟩⟩
  · rw [hv]; rfl
  · rw [stall] at stalled
    rw [ramp, state, drain, Ring.nextState_of_stalls stalled, Ring.nextDrain_of_stalls stalled]
    exact ⟨rfl, rfl, rfl⟩
  all_goals rw [stall] at moves
  · rw [drain, Ring.nextDrain_of_moves moves]
  all_goals rw [ramp, state, Ring.nextState_of_moves moves]
  · rw [if_pos h]; exact ⟨rfl, rfl⟩
  · rw [if_neg h, if_pos ht]; exact ⟨rfl, rfl⟩
  · rw [if_neg h, if_neg (Nat.not_le.mpr ht)]; exact ⟨rfl, rfl⟩

end Sys2Proof.Machine
end

section
/-! PROOFS. The report window: the records as rows of little-endian fields laid out one after another, and the take that
forms them. Settles O23. -/

namespace Sys2Proof.Machine

/-! ### Fields laid out one after another

A row lists fields by their number of bytes and their value, in the order of their bytes. -/

/-- The bytes of a row. -/
def rowBytes (row : List (Nat × Nat)) : List Byte := row.flatMap (fun f => leBytes f.1 f.2)

/-- The number of bytes of a row. -/
def rowSize (row : List (Nat × Nat)) : Nat := (row.map (fun f => f.1)).sum

/-- The fields of a row whose bytes begin at byte `k`, as `Shows` lists them. -/
def rowFields : Nat → List (Nat × Nat) → List (Nat × Nat × Nat)
  | _, [] => []
  | k, f :: row => (k, f.1, f.2) :: rowFields (k + f.1) row

@[simp] theorem rowBytes_nil : rowBytes [] = [] := rfl

@[simp] theorem rowBytes_cons (f : Nat × Nat) (row : List (Nat × Nat)) :
    rowBytes (f :: row) = leBytes f.1 f.2 ++ rowBytes row := rfl

@[simp] theorem rowBytes_append (a b : List (Nat × Nat)) : rowBytes (a ++ b) = rowBytes a ++ rowBytes b :=
  List.flatMap_append

@[simp] theorem rowBytes_length (row : List (Nat × Nat)) : (rowBytes row).length = rowSize row := by
  simp [rowBytes, rowSize, List.length_flatMap]

@[simp] theorem rowSize_nil : rowSize [] = 0 := rfl

@[simp] theorem rowSize_cons (f : Nat × Nat) (row : List (Nat × Nat)) : rowSize (f :: row) = f.1 + rowSize row :=
  List.sum_cons

@[simp] theorem rowSize_append (a b : List (Nat × Nat)) : rowSize (a ++ b) = rowSize a + rowSize b := by
  simp [rowSize]

/-- Bytes that hold a row from byte `k` on show its fields there. -/
theorem shows_rowFields {bytes rest : List Byte} {k : Nat} {row : List (Nat × Nat)}
    (h : bytes.drop k = rowBytes row ++ rest) : Shows bytes (rowFields k row) := by
  induction row generalizing k with
  | nil => exact nofun
  | cons f row ih =>
    rw [rowBytes_cons, List.append_assoc] at h
    refine List.forall_mem_cons.mpr ⟨?_, ih (k := k + f.1) ?_⟩
    · rw [leField, h, List.take_left' (leBytes_length _ _), leNat_leBytes]
    · rw [← List.drop_drop, h, List.drop_left' (leBytes_length _ _)]

theorem zeros_eq_leBytes (n : Nat) : zeros n = leBytes n 0 := by
  induction n with
  | zero => rfl
  | succ n ih => rw [leBytes, Nat.zero_div, ← ih]; rfl

/-! ### The rows of the records (11_layouts_and_signals.md) -/

/-- A list of fields of one width is a row. -/
theorem fieldRow_eq (first width : Nat) (values : List Nat) :
    fieldRow first width values = rowFields first (values.map (fun v => (width, v))) := by
  have placed (n : Nat) : (values.zipIdx n).map (fun x => (first + width * x.2, width, x.1)) =
      rowFields (first + width * n) (values.map (fun v => (width, v))) := by
    induction values generalizing n with
    | nil => rfl
    | cons v values ih => rw [List.zipIdx_cons, List.map_cons, List.map_cons, ih, Nat.mul_succ, ← Nat.add_assoc]; rfl
  exact placed 0

/-- Bytes 0..39 of the device report. -/
def State.deviceHeadRow (s : State) : List (Nat × Nat) :=
  let levels : List Urgency := [.none, .may, .need, .must]
  let held := s.hst.slots.filter (fun x => x.state = .held)
  [(1, [Capacity.gib4, .gib8].idxOf s.capacity), (1, flagField s.swu.softReset + 2 * flagField s.hst.flush),
    (2, s.sje.epoch.toNat), (2, s.sje.el), (2, s.sje.sl), (2, s.fanInWindow), (2, s.poolFree), (2, s.hst.slots.length),
    (1, levels.idxOf s.urgency), (1, (held.head?.map (fun x => (s.sje.epoch - x.admitted).toNat)).getD 0),
    (1, flagField s.hst.holdEnable), (1, s.hst.ageLimit), (2, s.hst.lowMark), (2, max s.hst.highMark s.hst.lowMark),
    (1, [ChannelState.init, .run, .quiet, .waking].idxOf s.dcc.state), (1, s.dcc.backlog), (1, s.dcc.readQ.length),
    (1, s.dcc.writeQ.length), (1, if s.dcc.inHand = none then 0 else levels.idxOf s.retirementRank),
    (1, s.dcc.quietDelay), (2, s.dcc.refreshInterval), (1, [LinkState.down, .training, .up].idxOf s.clp.state),
    (1, s.rfe.rq.length), (1, s.rfe.responses.length), (1, s.clp.owed), (6, 0)]

/-- The 8 bytes of an alert line. -/
def AlertLine.row (l : AlertLine) : List (Nat × Nat) :=
  [(1, [AlertMode.level, .inverted, .pulseHigh, .pulseLow].idxOf l.mode),
    (1, [PulseWidth.us1, .us10, .us100, .ms1].idxOf l.width), (1, l.mask.toNat), (1, l.flags.toNat),
    (1, flagField l.driven + 2 * flagField l.pulse.isSome), (1, 0), (1, 0), (1, 0)]

/-- The device counters, four bytes each (R173). -/
def DeviceCounters.row (c : DeviceCounters) : List (Nat × Nat) :=
  [c.hits, c.misses, c.elided, c.retired, c.overwrites, c.refreshOverruns, c.linkDrops, c.discarded,
    c.integrityFailures, c.rqOverflows, c.tagReuses, c.rangeErrors, c.evictions].map (fun v => (4, v))

/-- The row of the device report. -/
def State.deviceRow (s : State) : List (Nat × Nat) :=
  s.deviceHeadRow ++ (s.alerts[0].row ++ s.alerts[1].row ++ s.alerts[2].row ++ s.alerts[3].row) ++ s.counters.row ++
    [(132, 0)]

theorem State.deviceFields_eq (s : State) : s.deviceFields = rowFields 0 s.deviceRow := by
  have e : List.finRange 4 = [0, 1, 2, 3] := rfl
  simp only [State.deviceFields, fieldRow_eq, e, List.flatMap_cons, List.flatMap_nil, List.append_nil, State.deviceRow,
    State.deviceHeadRow, DeviceCounters.row, AlertLine.row, rowFields, List.map_cons, List.map_nil, List.cons_append,
    List.nil_append, Fin.getElem_fin, Fin.coe_ofNat_eq_mod, Nat.reduceMod, Nat.reduceMul, Nat.reduceAdd]

theorem State.oldestHeldAge_eq (s : State) : s.oldestHeldAge =
    ((s.hst.slots.filter (fun x => x.state = .held)).head?.map (fun x => (s.sje.epoch - x.admitted).toNat)).getD 0 := by
  unfold State.oldestHeldAge
  rw [HoldStore.oldestHeld?_eq_head?]
  simp only [beq_eq_decide]
  cases (s.hst.slots.filter (fun x => x.state = .held)).head? <;> rfl

theorem State.inHandRank_eq (s : State) : s.inHandRank =
    if s.dcc.inHand = none then 0 else [Urgency.none, .may, .need, .must].idxOf s.retirementRank := by
  unfold State.inHandRank
  rw [← Urgency.rank_eq]
  cases s.dcc.inHand <;> rfl

theorem State.deviceHead_eq (s : State) : s.deviceHead = rowBytes s.deviceHeadRow := by
  unfold State.deviceHead State.deviceHeadRow
  simp only [field1, field2, zeros_eq_leBytes, rowBytes_cons, rowBytes_nil, List.append_assoc, List.append_nil]
  simp only [Capacity.code_eq, Urgency.rank_eq, ChannelState.code_eq, LinkState.code_eq, State.oldestHeldAge_eq,
    State.inHandRank_eq, HoldStore.fill, HoldStore.highInUse, bitAt_eq, pow_zero, pow_one, one_mul]

theorem AlertLine.report_eq (l : AlertLine) : l.report = rowBytes l.row := by
  simp only [AlertLine.report, AlertLine.row, AlertMode.code_eq, PulseWidth.code_eq, bitAt_eq, pow_zero, pow_one,
    one_mul]
  rfl

theorem DeviceCounters.report_eq (c : DeviceCounters) : c.report = rowBytes c.row := by
  simp only [DeviceCounters.report, DeviceCounters.row, field4, List.map_cons, List.map_nil, rowBytes_cons,
    rowBytes_nil, List.append_assoc, List.append_nil]

theorem State.deviceReport_eq (s : State) : s.deviceReport = rowBytes s.deviceRow := by
  simp only [State.deviceReport, State.deviceRow, State.deviceHead_eq, AlertLine.report_eq, DeviceCounters.report_eq,
    rowBytes_append, rowBytes_cons, rowBytes_nil, zeros_eq_leBytes, List.append_nil]

theorem State.deviceRow_size (s : State) : rowSize s.deviceRow = 256 := by
  simp only [State.deviceRow, State.deviceHeadRow, AlertLine.row, DeviceCounters.row, List.map_cons, List.map_nil,
    rowSize_append, rowSize_cons, rowSize_nil, Nat.reduceAdd]

/-! ### Ring reports -/

theorem flagField_carry (p : Policy) : flagField (p == .carry) = [Policy.spend, .carry].idxOf p := by
  cases p <;> rfl

/-- The counters of a ring, four bytes each (R173). -/
def RingCounters.row (c : RingCounters) : List (Nat × Nat) :=
  [c.cellsIn, c.cellsOut, c.untracked, c.resyncs, c.overruns, c.rewrites, c.skippedCells, c.skippedUnread,
    c.lostRecords, c.strayReads, c.marked, c.ceAlready, c.unmarkable, c.exempt, c.admitted, c.bypassed].map
      (fun v => (4, v))

/-- The row of the report of ring `k`. -/
def State.ringRow (s : State) (k : Fin 64) : List (Nat × Nat) :=
  let r := s.ring k
  let g := r.settings
  [(1, [RingState.off, .clear, .congested, .incast, .stalled].idxOf r.state), (1, r.ramp), (1, r.stall),
    (1, (r.senders.filter (fun e => (s.sje.epoch - e.lastSeen).toNat ≤ s.fanInWindow)).length), (1, r.senders.length),
    (1, [Direction.up, .down].idxOf r.active.direction + 2 * [Direction.up, .down].idxOf r.staged.direction +
      4 * [Policy.spend, .carry].idxOf g.policy + 8 * flagField g.holdEnable + 16 * g.dw),
    (1, r.credit), (1, g.alertGroup.val + 16 * g.ml), (4, r.active.base), (4, r.active.length), (2, r.active.lead),
    (4, r.staged.base), (4, r.staged.length), (2, r.staged.lead), (2, r.fillPos), (2, r.drainPos), (4, r.occ),
    (2, r.reads), (2, r.records.length), (2, (r.records.head?.map (fun x => x.pos)).getD 0),
    (2, (r.records.head?.map (fun x => x.arrival.toNat)).getD 0), (2, r.drain), (2, r.lastT), (2, g.tl), (2, g.th),
    (2, g.ps), (2, g.qf), (2, g.hh), (2, g.quota), (2, (s.hst.slots.filter (fun x => x.ring = k)).length), (1, g.ft),
    (1, 0)] ++ r.counters.row

theorem State.ringFields_eq (s : State) (k : Fin 64) : s.ringFields k = rowFields 0 (s.ringRow k) := by
  simp only [State.ringFields, fieldRow_eq, State.ringRow, RingCounters.row, rowFields, List.map_cons,
    List.map_nil, List.cons_append, List.nil_append, Nat.reduceAdd]

theorem RingCounters.report_eq (c : RingCounters) : c.report = rowBytes c.row := by
  simp only [RingCounters.report, RingCounters.row, field4, List.map_cons, List.map_nil, rowBytes_cons, rowBytes_nil,
    List.append_assoc, List.append_nil]

theorem fanIn_eq (senders : List Sender) (now : Epoch) (w : Nat) :
    fanIn senders now w = (senders.filter (fun e => (now - e.lastSeen).toNat ≤ w)).length := rfl

theorem HoldStore.heldFor_eq (h : HoldStore) (k : Fin 64) :
    h.heldFor k = (h.slots.filter (fun x => x.ring = k)).length := rfl

theorem State.ringReport_eq (s : State) (k : Fin 64) : s.ringReport k = rowBytes (s.ringRow k) := by
  unfold State.ringReport State.ringRow Ring.reportFlags Geometry.report
  simp only [field1, field2, field4, zeros_eq_leBytes, RingCounters.report_eq, rowBytes_append, rowBytes_cons, rowBytes_nil,
    List.append_assoc, List.append_nil]
  simp only [RingState.code_eq, bitAt_eq, Direction.isDown_eq, Ring.headPosition, Ring.headArrival,
    HoldStore.heldFor_eq, fanIn_eq, flagField_carry, pow_zero, pow_one, one_mul, Nat.reducePow]

theorem State.ringRow_size (s : State) (k : Fin 64) : rowSize (s.ringRow k) = 128 := by
  simp only [State.ringRow, RingCounters.row, List.map_cons, List.map_nil, rowSize_append, rowSize_cons, rowSize_nil,
    Nat.reduceAdd]

/-! ### Sender Lists -/

/-- The row of one slot of a Sender List; a slot past the list's end is zero (R51). -/
def senderRow (now : Epoch) : Option Sender → List (Nat × Nat)
  | some e => [(2, e.signature.toNat), (1, (now - e.lastSeen).toNat), (1, min 255 e.packets)]
  | none => [(4, 0)]

theorem senderRow_size (now : Epoch) (e : Option Sender) : rowSize (senderRow now e) = 4 := by cases e <;> rfl

theorem State.senderFields_eq (s : State) (k : Fin 64) : s.senderFields k =
    (List.range 16).flatMap (fun i => rowFields (4 * i) (senderRow s.sje.epoch (s.ring k).senders[i]?)) := by
  unfold State.senderFields
  congr 1
  funext i
  cases (s.ring k).senders[i]? <;> rfl

theorem Sender.report_eq (now : Epoch) (e : Sender) : e.report now = rowBytes (senderRow now (some e)) := by
  simp only [Sender.report, Sender.age, senderRow, field1, field2, rowBytes_cons, rowBytes_nil, List.append_assoc,
    List.append_nil]

/-- The first slots of a Sender List, one by one: an entry, or zeros past the list's end. -/
theorem take_senders (now : Epoch) (es : List Sender) {n pad : Nat} (h : 4 * n ≤ pad) :
    (es.flatMap (Sender.report now) ++ zeros pad).take (4 * n) =
      (List.range n).flatMap (fun i => rowBytes (senderRow now es[i]?)) := by
  induction n generalizing es pad with
  | zero => rfl
  | succ n ih =>
    have first (e : Option Sender) (more : List Byte) : (rowBytes (senderRow now e) ++ more).take (4 * (n + 1)) =
        rowBytes (senderRow now e) ++ more.take (4 * n) := by
      rw [List.take_append, List.take_of_length_le] <;> rw [rowBytes_length, senderRow_size]
      · rfl
      · omega
    rw [List.range_succ_eq_map, List.flatMap_cons, List.flatMap_map]
    cases es with
    | nil =>
      have split : zeros pad = rowBytes (senderRow now none) ++ zeros (pad - 4) := by
        have : pad = 4 + (pad - 4) := by omega
        rw [zeros, this, List.replicate_add, Nat.add_sub_cancel_left]
        rfl
      rw [List.flatMap_nil, List.nil_append, split, first]
      exact congrArg (_ ++ ·) (ih [] (by omega))
    | cons e es =>
      rw [List.flatMap_cons, Sender.report_eq, List.append_assoc, first]
      exact congrArg (_ ++ ·) (ih es (by omega))

theorem State.senderReport_eq (s : State) (k : Fin 64) : s.senderReport k =
    (List.range 16).flatMap (fun i => rowBytes (senderRow s.sje.epoch (s.ring k).senders[i]?)) :=
  take_senders s.sje.epoch (s.ring k).senders (n := 16) le_rfl

/-! ### Report cells -/

/-- The `j`th of the blocks of one length that a byte string is made of. -/
theorem drop_flatMap_range {g : Nat → List Byte} {w n j : Nat} (hg : ∀ i, (g i).length = w) (hj : j < n) :
    ∃ rest, ((List.range n).flatMap g).drop (w * j) = g j ++ rest := by
  induction n with
  | zero => omega
  | succ n ih =>
    have len : ((List.range n).flatMap g).length = w * n := by
      simp [List.length_flatMap, hg, Nat.mul_comm]
    rw [List.range_succ, List.flatMap_append, List.flatMap_singleton]
    rcases Nat.lt_succ_iff_lt_or_eq.mp hj with hj | rfl
    · obtain ⟨rest, h⟩ := ih hj
      refine ⟨rest ++ g n, ?_⟩
      rw [List.drop_append_of_le_length (by rw [len]; exact Nat.mul_le_mul_left w hj.le), h, List.append_assoc]
    · exact ⟨[], by rw [List.drop_left' len, List.append_nil]⟩

/-- The report of ring `k` lies in its half of its report cell (R169). -/
theorem State.reportCell_ring (s : State) (k : Fin 64) :
    ∃ rest, (s.reportCell (1 + k.val / 2)).drop (128 * (k.val % 2)) = rowBytes (s.ringRow k) ++ rest := by
  have lt := k.isLt
  have number : ringNumber (2 * (1 + k.val / 2 - 1) + k.val % 2) = k := by
    apply Fin.ext; simp only [ringNumber, Fin.ofNat]; omega
  have cell : s.reportCell (1 + k.val / 2) =
      (List.range 2).flatMap (fun i => rowBytes (s.ringRow (ringNumber (2 * (1 + k.val / 2 - 1) + i)))) := by
    unfold State.reportCell
    rw [if_neg (by omega), if_pos (by omega), State.ringReport_eq, State.ringReport_eq]
    simp only [List.range_succ, List.range_zero, List.nil_append, List.cons_append, List.flatMap_cons, List.flatMap_nil,
      List.append_nil, Nat.add_zero]
  rw [cell]
  obtain ⟨rest, h⟩ := drop_flatMap_range (w := 128) (j := k.val % 2) (n := 2)
    (g := fun i => rowBytes (s.ringRow (ringNumber (2 * (1 + k.val / 2 - 1) + i))))
    (fun i => by rw [rowBytes_length, State.ringRow_size]) (by omega)
  exact ⟨rest, by rw [h, number]⟩

theorem State.senderReport_length (s : State) (k : Fin 64) : (s.senderReport k).length = 64 := by
  rw [State.senderReport_eq, List.length_flatMap]
  simp only [rowBytes_length, senderRow_size]
  rfl

/-- The Sender List of ring `k` lies in its quarter of its report cell (R51, R169). -/
theorem State.reportCell_senders (s : State) (k : Fin 64) :
    ∃ rest, (s.reportCell (33 + k.val / 4)).drop (64 * (k.val % 4)) = s.senderReport k ++ rest := by
  have lt := k.isLt
  have number : ringNumber (4 * (33 + k.val / 4 - 33) + k.val % 4) = k := by
    apply Fin.ext; simp only [ringNumber, Fin.ofNat]; omega
  have cell : s.reportCell (33 + k.val / 4) =
      (List.range 4).flatMap (fun i => s.senderReport (ringNumber (4 * (33 + k.val / 4 - 33) + i))) := by
    unfold State.reportCell
    rw [if_neg (by omega), if_neg (by omega), if_pos (by omega)]
    simp only [List.range_succ, List.range_zero, List.nil_append, List.cons_append, List.flatMap_cons, List.flatMap_nil,
      List.append_assoc, List.append_nil, Nat.add_zero]
  rw [cell]
  obtain ⟨rest, h⟩ := drop_flatMap_range (w := 64) (j := k.val % 4) (n := 4)
    (g := fun i => s.senderReport (ringNumber (4 * (33 + k.val / 4 - 33) + i)))
    (fun i => s.senderReport_length _) (by omega)
  exact ⟨rest, by rw [h, number]⟩

theorem State.reportCell_zeros (s : State) {n : Nat} (h : 49 ≤ n) : s.reportCell n = zeros 256 := by
  unfold State.reportCell
  rw [if_neg (by omega), if_neg (by omega), if_neg (by omega)]

theorem State.reportCell_length (s : State) (n : Nat) : (s.reportCell n).length = 256 := by
  unfold State.reportCell
  split_ifs
  · rw [State.deviceReport_eq, rowBytes_length, State.deviceRow_size]
  · simp only [State.ringReport_eq, List.length_append, rowBytes_length, State.ringRow_size]
  · simp only [List.length_append, State.senderReport_length]
  · exact zeros_length 256

/-- Bytes that begin with a Sender List show its slots one after another. -/
theorem State.shows_senderFields {bytes rest : List Byte} (s : State) (k : Fin 64)
    (h : bytes = s.senderReport k ++ rest) : Shows bytes (s.senderFields k) := by
  intro f hf
  rw [State.senderFields_eq] at hf
  obtain ⟨i, hi, hf⟩ := List.mem_flatMap.mp hf
  have lt : i < 16 := List.mem_range.mp hi
  obtain ⟨more, slot⟩ := drop_flatMap_range (w := 4) (j := i) (n := 16)
    (g := fun i => rowBytes (senderRow s.sje.epoch (s.ring k).senders[i]?))
    (fun i => by rw [rowBytes_length, senderRow_size]) lt
  refine shows_rowFields (rest := more ++ rest) ?_ f hf
  rw [h, List.drop_append_of_le_length (by rw [State.senderReport_length]; omega), State.senderReport_eq, slot,
    List.append_assoc]

/-! ### The take of a report read -/

/-- A READY answer of the state that a take starts from is the one the statements call `readyRead`. -/
theorem State.addResponse_popHead {s : State} {rest : List Request} {r : Response} (h : r.state = .ready) :
    (s.popHead rest).addResponse r = s.readyRead rest r := by
  unfold State.addResponse
  rw [if_pos h]
  rfl

/-- The fields of the device report count the response entries, whatever they hold. -/
theorem State.readyRead_deviceFields (s : State) (rest : List Request) (r : Response) (data : List Byte) :
    (s.readyRead rest { r with data := data }).deviceFields = (s.readyRead rest r).deviceFields := by
  have len : (s.readyRead rest { r with data := data }).rfe.responses.length =
      (s.readyRead rest r).rfe.responses.length := by
    simp only [State.readyRead, List.length_append, List.length_singleton]
  unfold State.deviceFields
  rw [len]
  rfl

section
variable {s : State} {c : Instr} {cell n : Nat} {tag : Tag} {x : Extent} {rest : List Request}

/-- A report read at the head, with a fresh tag and an entry for it, is taken (R144, R157). -/
theorem exec_reportRead
    (head : c = .cellRead ∧ x = .cell ∧ s.rfe.rq = .cellRead cell tag :: rest ∨
      c = .wordRead ∧ ∃ w, x = .word w ∧ s.rfe.rq = .wordRead cell w tag :: rest)
    (report : s.cellClass cell = .report n) (fresh : tag ∉ s.rfe.tags) (room : s.rfe.responses.length < 64) :
    ∃ id, id < 64 ∧ (∀ r ∈ s.rfe.responses, r.id ≠ id) ∧
      exec c s = .next ((s.popHead rest).takeReportRead n id tag x).settle := by
  obtain ⟨id, hid⟩ := FrontEnd.freeEntry?_of_length (f := (s.popHead rest).rfe) room
  obtain ⟨lt, unused⟩ := FrontEnd.freeEntry?_spec hid
  refine ⟨id, lt, unused, ?_⟩
  have notIn : tag ∉ (s.popHead rest).rfe.tags := fresh
  rcases head with ⟨rfl, rfl, hq⟩ | ⟨rfl, w, rfl, hq⟩
  · have take : (s.popHead rest).takeCellRead cell tag = some ((s.popHead rest).takeReportRead n id tag .cell) := by
      unfold State.takeCellRead
      rw [hid, State.popHead_cellClass, report]
      exact if_neg notIn
    rw [exec_cellRead hq, take]
    rfl
  · have take : (s.popHead rest).takeWordRead cell w tag =
        some ((s.popHead rest).takeReportRead n id tag (.word w)) := by
      unfold State.takeWordRead
      rw [hid, State.popHead_cellClass, report]
      exact if_neg notIn
    rw [exec_wordRead hq, take]
    rfl

/-- The answer of a report read holds the report of the state with its entry reserved (R156). -/
theorem State.takeReportRead_eq (id : Nat) : (s.popHead rest).takeReportRead n id tag x =
    s.readyRead rest (readyResponse id tag x .ok
      ((s.readyRead rest (readyResponse id tag x .ok [])).reportData n x)) := by
  unfold State.takeReportRead
  rw [State.addResponse_popHead rfl, State.addResponse_popHead rfl]

end

/-- Settles O23: the data are a report cell of the state with the read's entry reserved, and each kind of cell holds the
rows of its records. -/
theorem reportReadsShowTheTake : Obligations.ReportReadsShowTheTake := by
  intro s c cell n tag x rest head report fresh room
  obtain ⟨id, lt, unused, run⟩ := exec_reportRead head report fresh room
  let v := s.readyRead rest (readyResponse id tag x .ok [])
  refine ⟨id, v.reportData n x, v.reportCell n, lt, unused, ?_⟩
  intro u
  refine ⟨run.trans (congrArg (fun t => Host.Outcome.next (State.settle t)) (State.takeReportRead_eq id)), ?_, ?_,
    v.reportCell_length n, ?_, fun k hk => ?_, fun k hk => ?_, fun h => v.reportCell_zeros h⟩
  · rintro rfl; rfl
  · rintro w rfl; rfl
  · rintro rfl
    have fields : u.deviceFields = v.deviceFields :=
      s.readyRead_deviceFields rest (readyResponse id tag x .ok []) (v.reportData 0 x)
    rw [fields, State.deviceFields_eq]
    exact shows_rowFields (rest := []) (v.deviceReport_eq.trans (List.append_nil _).symm)
  · obtain ⟨more, h⟩ := v.reportCell_ring k
    have fields : u.ringFields k = v.ringFields k := rfl
    rw [hk, fields, State.ringFields_eq]
    exact shows_rowFields h
  · obtain ⟨more, h⟩ := v.reportCell_senders k
    have fields : u.senderFields k = v.senderFields k := rfl
    rw [hk, fields]
    exact v.shows_senderFields k h

end Sys2Proof.Machine
end

section
/-! PROOFS. Only the named events move the array, CAP, the epoch number and an active ring's estimate: what each command
leaves of them. Within one control cell no word that can stop a ring comes before the ring's enable word, so that no take
stops and restarts it. Settles O56. -/

namespace Sys2Proof.Machine

/-! ### What the choices that follow an event leave -/

/-- Two states alike but for the link, the request path, the channel and the store. -/
def State.AlikeOutside (s t : State) : Prop := t = { s with clp := t.clp, rfe := t.rfe, dcc := t.dcc, hst := t.hst }

theorem State.AlikeOutside.trans {s t u : State} (a : s.AlikeOutside t) (b : t.AlikeOutside u) : s.AlikeOutside u := by
  unfold State.AlikeOutside at a b
  rw [a] at b
  exact b

theorem State.startTraining_alike (s : State) : s.AlikeOutside s.startTraining := by
  rcases s.startTraining_cases with h | ⟨-, -, -, h⟩ <;> rw [h] <;> rfl

theorem State.wake_alike (s : State) : s.AlikeOutside s.wake := by
  rcases s.wake_cases with h | ⟨-, h⟩ <;> rw [h] <;> rfl

theorem State.enterQuiet_alike (s : State) : s.AlikeOutside s.enterQuiet := by
  rcases s.enterQuiet_cases with h | ⟨-, -, h⟩ <;> rw [h] <;> rfl

theorem State.retire_alike (s : State) (u : Urgency) : s.AlikeOutside (s.retire u) := by
  rcases s.retire_cases u with ⟨r, -, h⟩ | ⟨x, r, -, -, -, -, -, h⟩ | ⟨-, -, h⟩ <;> rw [h] <;> rfl

theorem State.arbitrate_alike (s : State) : s.AlikeOutside s.arbitrate := by
  rcases s.arbitrate_cases with h | ⟨-, -, ⟨-, h⟩ | ⟨u, -, -, h⟩ | ⟨e, -, h⟩ | ⟨w, ws, -, -, h⟩⟩ <;> rw [h]
  · rfl
  · rfl
  · exact s.retire_alike u
  · rfl
  · rfl

theorem State.transmit_alike (s : State) : s.AlikeOutside s.transmit := by
  rcases s.transmit_cases with h | ⟨-, -, ⟨-, h⟩ | ⟨n, rest, -, h⟩⟩ <;> rw [h]
  · rfl
  · rfl
  · rcases s.startResponse_cases n rest with h | ⟨r, -, -, h⟩ <;> rw [h] <;> rfl

/-- Everything of a settled state but the link, the request path, the channel and the store is as the event made it. -/
theorem State.settle_alike (s : State) : s.AlikeOutside s.settle :=
  (((s.startTraining_alike.trans (State.wake_alike _)).trans (State.arbitrate_alike _)).trans
    (State.enterQuiet_alike _)).trans (State.transmit_alike _)

theorem State.settle_dram (s : State) : s.settle.dram = s.dram := by rw [s.settle_alike]
theorem State.settle_alerts (s : State) : s.settle.alerts = s.alerts := by rw [s.settle_alike]

/-! ### What a move leaves of the array, CAP, the epoch number and one ring's estimate -/

/-- The estimate stays. -/
def Ring.Stays (r v : Ring) : Prop := v.estimate = r.estimate

/-- The estimate stays, or the ring is OFF after. -/
def Ring.StaysOrStops (r v : Ring) : Prop := v.state = .off ∨ v.estimate = r.estimate

/-- The estimate stays where the ring is active before and after. -/
def Ring.StaysWhileActive (r v : Ring) : Prop := r.state ≠ .off → v.state ≠ .off → v.estimate = r.estimate

theorem Ring.Stays.orStops {r v : Ring} (h : r.Stays v) : r.StaysOrStops v := .inr h

theorem Ring.StaysOrStops.whileActive {r v : Ring} (h : r.StaysOrStops v) : r.StaysWhileActive v :=
  fun _ on => h.resolve_left on

theorem Ring.Stays.whileActive {r v : Ring} (h : r.Stays v) : r.StaysWhileActive v := fun _ _ => h

theorem Ring.Stays.state {r v : Ring} (h : r.Stays v) : v.state = r.state := congrArg Prod.fst h

theorem Ring.Stays.trans {r v x : Ring} (a : r.Stays v) (b : v.Stays x) : r.Stays x := Eq.trans b a

/-- What an OFF ring's estimate stays at is OFF. -/
theorem Ring.StaysOrStops.trans {r v x : Ring} (a : r.StaysOrStops v) (b : v.StaysOrStops x) : r.StaysOrStops x := by
  rcases b with off | b
  · exact .inl off
  · rcases a with off | a
    · exact .inl (Ring.Stays.state b ▸ off)
    · exact .inr (Ring.Stays.trans a b)

/-- A ring whose estimate stays before a move that keeps it while active. -/
theorem Ring.Stays.whileActive_trans {r v x : Ring} (a : r.Stays v) (b : v.StaysWhileActive x) :
    r.StaysWhileActive x := fun on on' => a.trans (b (a.state ▸ on) on')

/-- A ring that can only stop after a move that keeps its estimate while active. -/
theorem Ring.StaysWhileActive.trans_orStops {r v x : Ring} (a : r.StaysWhileActive v) (b : v.StaysOrStops x) :
    r.StaysWhileActive x := by
  intro on on'
  have b : v.Stays x := b.resolve_left on'
  exact Ring.Stays.trans (a on (b.state ▸ on')) b

/-- The array, CAP and the epoch number stay, and ring `k` goes on as `E` says. -/
structure State.Leaves (E : Ring → Ring → Prop) (k : Fin 64) (s t : State) : Prop where
  dram : t.dram = s.dram
  capacity : t.capacity = s.capacity
  epoch : t.sje.epoch = s.sje.epoch
  ring : E (s.ring k) (t.ring k)

section
variable {E F G : Ring → Ring → Prop} {k : Fin 64} {s t u : State}

theorem State.Leaves.mono (h : s.Leaves E k t) (imp : ∀ {r v}, E r v → F r v) : s.Leaves F k t :=
  ⟨h.dram, h.capacity, h.epoch, imp h.ring⟩

theorem State.Leaves.comp (a : s.Leaves E k t) (b : t.Leaves F k u) (comp : ∀ {r v x}, E r v → F v x → G r x) :
    s.Leaves G k u :=
  ⟨b.dram.trans a.dram, b.capacity.trans a.capacity, b.epoch.trans a.epoch, comp a.ring b.ring⟩

/-- Where the rings stay, every estimate does. -/
theorem State.Leaves.of_rings (dram : t.dram = s.dram) (capacity : t.capacity = s.capacity)
    (epoch : t.sje.epoch = s.sje.epoch) (rings : t.rings = s.rings) : s.Leaves Ring.Stays k t :=
  ⟨dram, capacity, epoch, congrArg Ring.estimate (State.ring_of_rings rings k)⟩

/-- Work that begins once something has changed that none of these speak of. -/
theorem State.Leaves.after (h : t.Leaves E k u) (dram : t.dram = s.dram) (capacity : t.capacity = s.capacity)
    (epoch : t.sje.epoch = s.sje.epoch) (rings : t.rings = s.rings) : s.Leaves E k u :=
  ⟨h.dram.trans dram, h.capacity.trans capacity, h.epoch.trans epoch, State.ring_of_rings rings k ▸ h.ring⟩

/-- Where one ring changes, and its estimate stays, every estimate does. -/
theorem State.Leaves.of_setRing {j : Fin 64} {r : Ring} (dram : t.dram = s.dram) (capacity : t.capacity = s.capacity)
    (epoch : t.sje.epoch = s.sje.epoch) (rings : t.rings = (s.setRing j r).rings)
    (h : r.estimate = (s.ring j).estimate) : s.Leaves Ring.Stays k t := by
  refine ⟨dram, capacity, epoch, ?_⟩
  unfold Ring.Stays
  rw [State.ring_of_rings rings, State.ring_setRing]
  split
  · rename_i e; rw [e]; exact h
  · rfl

theorem State.TrackKeeps.leaves {j : Fin 64} (keeps : State.TrackKeeps j s t)
    (h : (t.ring j).estimate = (s.ring j).estimate) : s.Leaves Ring.Stays k t := by
  refine ⟨keeps.dram, keeps.capacity, congrArg _ keeps.sje, ?_⟩
  by_cases e : k = j
  · rw [e]; exact h
  · exact congrArg Ring.estimate (keeps.ring k e)

theorem State.Leaves.settle (h : s.Leaves E k t) : s.Leaves E k t.settle := by
  have choices := t.settle_chooses
  refine ⟨t.settle_dram.trans h.dram, choices.capacity.trans h.capacity, (congrArg _ choices.sje).trans h.epoch, ?_⟩
  rw [State.ring_of_rings choices.rings]
  exact h.ring

/-! ### Control words -/

/-- The completion of a soft reset leaves the ring OFF (R167). -/
theorem State.checkFlush_leaves (s : State) : s.Leaves Ring.StaysOrStops k s.checkFlush := by
  rcases s.checkFlush_cases with ⟨-, -, h⟩ | ⟨-, h⟩ <;> rw [h]
  · exact ⟨rfl, rfl, rfl, .inl (by rw [State.completeSoftReset_ring]; rfl)⟩
  · exact ⟨rfl, rfl, rfl, .inr rfl⟩

/-- An enable acts on an OFF ring and a disable on an active one (R35). -/
theorem State.writeEnable_leaves (w : List Byte) (s : State) : s.Leaves Ring.StaysWhileActive k (s.writeEnable k w) := by
  unfold State.writeEnable State.enableRing State.disableRing
  split_ifs with _ on
  · exact ⟨rfl, rfl, rfl, fun _ _ => rfl⟩
  · exact ⟨rfl, rfl, rfl, fun _ _ => rfl⟩
  · exact ⟨rfl, rfl, rfl, fun h => absurd (Ring.isActive_iff.mpr h) on⟩
  · exact ⟨rfl, rfl, rfl, fun _ h => absurd (by rw [State.ring_setRing_self]; rfl) h⟩
  · exact ⟨rfl, rfl, rfl, fun _ _ => rfl⟩
  · exact ⟨rfl, rfl, rfl, fun _ _ => rfl⟩

/-- A control word other than the soft-reset word and the ring's enable word leaves the ring's estimate. -/
theorem State.writeControl_stays {c : ControlWord} (w : List Byte) (s : State) (notReset : c ≠ .softReset)
    (notEnable : c ≠ .enable k) : s.Leaves Ring.Stays k (s.writeControl c w) := by
  cases c with
  | epochSettings | refreshQuiet | alertLine | flagClear | plain => exact .of_rings rfl rfl rfl rfl
  | storeSettings =>
    unfold State.writeControl State.writeStoreSettings
    dsimp only
    rw [State.raiseStoreMust_eq]
    exact .of_rings rfl rfl rfl rfl
  | softReset => exact absurd rfl notReset
  | ring j i =>
    obtain ⟨g, x, e, -⟩ := (s.ring j).writeWord_stages i w
    unfold State.writeControl
    dsimp only
    rw [e]
    exact .of_setRing (j := j) rfl rfl rfl rfl rfl
  | enable j =>
    have others : (s.writeEnable j w).ring k = s.ring k := by
      have ne : k ≠ j := fun e => notEnable (by rw [e])
      unfold State.writeEnable
      split_ifs
      · exact s.enableRing_others j k ne
      · exact s.disableRing_others j k ne
      · rfl
    have frame := State.writeEnable_leaves (k := j) w s
    exact ⟨frame.dram, frame.capacity, frame.epoch, congrArg Ring.estimate others⟩
  | counterClear =>
    unfold State.writeControl State.writeCounterClear
    dsimp only
    split_ifs
    · refine ⟨rfl, rfl, rfl, ?_⟩
      unfold Ring.Stays
      simp only [State.ring, State.clearCounters, Fin.getElem_fin, Vector.getElem_map]
      rfl
    · exact .of_rings rfl rfl rfl rfl

/-- A control word other than the ring's enable word can stop the ring, by a soft reset, and leaves its estimate. -/
theorem State.writeControl_staysOrStops {c : ControlWord} (w : List Byte) (s : State) (notEnable : c ≠ .enable k) :
    s.Leaves Ring.StaysOrStops k (s.writeControl c w) := by
  by_cases reset : c = .softReset
  · subst reset
    unfold State.writeControl State.writeSoftReset State.startSoftReset
    dsimp only
    split_ifs
    · exact ⟨rfl, rfl, rfl, .inr rfl⟩
    · exact (State.checkFlush_leaves _).after rfl rfl rfl rfl
    · exact ⟨rfl, rfl, rfl, .inr rfl⟩
  · exact (s.writeControl_stays w reset notEnable).mono Ring.Stays.orStops

theorem State.writeControl_leaves (c : ControlWord) (w : List Byte) (s : State) :
    s.Leaves Ring.StaysWhileActive k (s.writeControl c w) := by
  by_cases enable : c = .enable k
  · subst enable; exact s.writeEnable_leaves w
  · exact (s.writeControl_staysOrStops w enable).mono Ring.StaysOrStops.whileActive

/-- No word before an enable word of ring `k` is one that can stop the ring. -/
def NothingStopsBeforeEnable (k : Fin 64) (cs : List ControlWord) : Prop :=
  cs.Pairwise (fun b c => c = .enable k → b ≠ .softReset ∧ b ≠ .enable k)

/-- A run of control words none of which is the ring's enable word. -/
theorem State.foldl_writeControl_staysOrStops (cs : List (ControlWord × List Byte)) (s : State)
    (none : ∀ x ∈ cs, x.1 ≠ .enable k) :
    s.Leaves Ring.StaysOrStops k (cs.foldl (fun t x => t.writeControl x.1 x.2) s) := by
  induction cs generalizing s with
  | nil => exact ⟨rfl, rfl, rfl, .inr rfl⟩
  | cons x cs ih =>
    obtain ⟨hx, hcs⟩ := List.forall_mem_cons.mp none
    exact (s.writeControl_staysOrStops x.2 hx).comp (ih _ hcs) Ring.StaysOrStops.trans

/-- A run of control words in which nothing stops the ring before it is enabled. -/
theorem State.foldl_writeControl_leaves (cs : List (ControlWord × List Byte)) (s : State)
    (h : NothingStopsBeforeEnable k (cs.map Prod.fst)) :
    s.Leaves Ring.StaysWhileActive k (cs.foldl (fun t x => t.writeControl x.1 x.2) s) := by
  induction cs generalizing s with
  | nil => exact ⟨rfl, rfl, rfl, fun _ _ => rfl⟩
  | cons x cs ih =>
    obtain ⟨hx, hcs⟩ := List.pairwise_cons.mp h
    by_cases later : ∃ y ∈ cs, y.1 = .enable k
    · obtain ⟨y, hy, e⟩ := later
      obtain ⟨notReset, notEnable⟩ := hx y.1 (List.mem_map_of_mem hy) e
      exact (s.writeControl_stays x.2 notReset notEnable).comp (ih _ hcs) Ring.Stays.whileActive_trans
    · exact (s.writeControl_leaves x.1 x.2).comp
        (State.foldl_writeControl_staysOrStops cs _ (fun y hy e => later ⟨y, hy, e⟩)) Ring.StaysWhileActive.trans_orStops

/-- The enable word of a ring has one place, in a ring cell (R158). -/
theorem controlWord_eq_enable {n w : Nat} (hw : w < 32) (h : controlWord n w = .enable k) :
    n ≠ 0 ∧ w = 8 * (k.val % 4) + 7 := by
  unfold controlWord at h
  split at h
  · unfold deviceWord at h; split at h <;> cases h
  · rename_i hn
    split at h
    · unfold ringWord at h
      split at h
      · cases h
      · cases h
        simp only [ringNumber, Fin.ofNat]
        exact ⟨hn, by omega⟩
    · split at h
      · unfold clearWord at h; split at h <;> cases h
      · cases h

/-- The soft-reset word lies in the device cell (R158, R160). -/
theorem controlWord_eq_softReset {n w : Nat} (h : controlWord n w = .softReset) : n = 0 := by
  unfold controlWord at h
  split at h
  · assumption
  · split at h
    · unfold ringWord at h; split at h <;> cases h
    · split at h
      · unfold clearWord at h; split at h <;> cases h
      · cases h

/-- Within one control cell a ring has one enable word, and the soft-reset word lies in another cell. -/
theorem controlCell_nothingStopsBeforeEnable (n : Nat) :
    NothingStopsBeforeEnable k ((List.range 32).map (controlWord n)) := by
  refine List.pairwise_map.mpr (List.pairwise_lt_range.imp_of_mem ?_)
  intro v w hv hw lt enable
  obtain ⟨ringCell, place⟩ := controlWord_eq_enable (List.mem_range.mp hw) enable
  refine ⟨fun h => ringCell (controlWord_eq_softReset h), fun h => ?_⟩
  have := (controlWord_eq_enable (List.mem_range.mp hv) h).2
  omega

theorem State.writeControlCell_leaves (n : Nat) (data : List Byte) (s : State) :
    s.Leaves Ring.StaysWhileActive k (s.writeControlCell n data) := by
  have fold := State.foldl_writeControl_leaves ((List.range 32).map (fun w => (controlWord n w, wordOf data w))) s
    (by rw [List.map_map]; exact controlCell_nothingStopsBeforeEnable (k := k) n)
  rw [List.foldl_map] at fold
  exact fold

/-! ### Takes -/

theorem State.queueWrite_leaves {cell : Nat} {w : WriteData} (e : s.queueWrite cell w = some u) :
    s.Leaves Ring.Stays k u := by
  obtain ⟨-, rfl⟩ := State.queueWrite_eq_some.mp e
  exact .of_rings rfl rfl rfl rfl

theorem State.takePlainWrite_leaves {cell : Nat} {data : List Byte} (e : s.takePlainWrite cell data = some u) :
    s.Leaves Ring.Stays k u := by
  unfold State.takePlainWrite at e
  split at e
  · cases e; exact .of_rings rfl rfl rfl rfl
  · exact State.queueWrite_leaves e

theorem State.admitOrBypass_leaves {j : Fin 64} {cell : Nat} {data : List Byte}
    (e : s.admitOrBypass j cell data = some u) : s.Leaves Ring.Stays k u := by
  rcases s.admitOrBypass_cases j cell data e with ⟨n, -, -, rfl⟩ | ⟨-, -, rfl⟩
  · rw [State.admitCell_eq]
    exact .of_setRing (j := j) rfl rfl rfl rfl rfl
  · exact .of_setRing (j := j) rfl rfl rfl rfl rfl

theorem State.takePositionWrite_leaves {j : Fin 64} {p cell : Nat} {data : List Byte}
    (e : s.takePositionWrite j p cell data = some u) : s.Leaves Ring.Stays k u := by
  have tracked : s.Leaves Ring.Stays k (s.trackWrite j p (summaryOf data)) := by
    refine (s.trackWrite_keeps j p _).leaves ?_
    obtain ⟨_, _, _, _, h⟩ := s.trackWrite_ring j p (summaryOf data)
    rw [h]
    exact ((s.ring j).moveWrite_frame p _).1
  refine tracked.comp ?_ Ring.Stays.trans
  unfold State.takePositionWrite at e
  dsimp only at e
  split at e
  · cases e; exact .of_rings rfl rfl rfl rfl
  · exact State.admitOrBypass_leaves e

theorem State.takeCellWrite_leaves {cell : Nat} {data : List Byte} (e : s.takeCellWrite cell data = some u) :
    s.Leaves Ring.StaysWhileActive k u := by
  have buffer (h : s.Leaves Ring.Stays k u) : s.Leaves Ring.StaysWhileActive k u := h.mono Ring.Stays.whileActive
  unfold State.takeCellWrite at e
  split at e
  · cases e; exact buffer (.of_rings rfl rfl rfl rfl)
  · cases e; exact buffer (.of_rings rfl rfl rfl rfl)
  · obtain ⟨v, hv, rfl⟩ := Option.map_eq_some_iff.mp e
    exact (State.queueWrite_leaves hv).comp (State.writeControlCell_leaves _ _ _) Ring.Stays.whileActive_trans
  · split at e
    · exact buffer (State.takePositionWrite_leaves e)
    · exact buffer (State.takePlainWrite_leaves e)
    · exact buffer (State.takePlainWrite_leaves e)

theorem State.takeWordWrite_leaves {cell w : Nat} {data : List Byte} (e : s.takeWordWrite cell w data = some u) :
    s.Leaves Ring.StaysWhileActive k u := by
  have buffer (h : s.Leaves Ring.Stays k u) : s.Leaves Ring.StaysWhileActive k u := h.mono Ring.Stays.whileActive
  unfold State.takeWordWrite at e
  split at e
  · cases e; exact buffer (.of_rings rfl rfl rfl rfl)
  · cases e; exact buffer (.of_rings rfl rfl rfl rfl)
  · obtain ⟨v, hv, rfl⟩ := Option.map_eq_some_iff.mp e
    exact (State.queueWrite_leaves hv).comp (State.writeControl_leaves _ _ _) Ring.Stays.whileActive_trans
  · split at e
    · cases e; exact buffer (.of_rings rfl rfl rfl rfl)
    · exact buffer (State.queueWrite_leaves e)

theorem State.takeDramRead_leaves {cell id : Nat} {tag : Tag} {x : Extent} {h : HeaderRead} {boost : Bool}
    (e : s.takeDramRead cell id tag x h boost = some u) : s.Leaves Ring.Stays k u := by
  obtain ⟨-, rfl⟩ := State.queueRead_eq_some.mp e
  exact .of_rings rfl rfl rfl rfl

theorem State.takeBufferRead_leaves {cell id : Nat} {tag : Tag} {x : Extent} {h : HeaderRead} {boost : Bool}
    (e : s.takeBufferRead cell id tag x h boost = some u) : s.Leaves Ring.Stays k u := by
  rcases State.takeBufferRead_cases e with ⟨slot, -, rfl⟩ | ⟨-, -, e⟩
  · exact .of_rings rfl rfl rfl rfl
  · exact (State.takeDramRead_leaves e).after rfl rfl rfl rfl

theorem State.takeBufferCellRead_leaves {cell id : Nat} {tag : Tag} (e : s.takeBufferCellRead cell id tag = some u) :
    s.Leaves Ring.Stays k u := by
  unfold State.takeBufferCellRead at e
  split at e
  · rename_i j p _
    exact ((s.trackRead_keeps j p).leaves (s.trackRead_frame j p).1).comp (State.takeBufferRead_leaves e)
      Ring.Stays.trans
  · exact State.takeBufferRead_leaves e
  · exact State.takeBufferRead_leaves e

theorem State.takeCellRead_leaves {cell : Nat} {tag : Tag} (e : s.takeCellRead cell tag = some u) :
    s.Leaves Ring.Stays k u := by
  unfold State.takeCellRead at e
  split at e
  · cases e
  split at e
  · cases e; exact .of_rings rfl rfl rfl rfl
  split at e
  · cases e; exact .of_rings rfl rfl rfl rfl
  · cases e; exact .of_rings rfl rfl rfl rfl
  · exact State.takeDramRead_leaves e
  · exact State.takeBufferCellRead_leaves e

theorem State.takeWordRead_leaves {cell w : Nat} {tag : Tag} (e : s.takeWordRead cell w tag = some u) :
    s.Leaves Ring.Stays k u := by
  unfold State.takeWordRead at e
  split at e
  · cases e
  split at e
  · cases e; exact .of_rings rfl rfl rfl rfl
  split at e
  · cases e; exact .of_rings rfl rfl rfl rfl
  · cases e; exact .of_rings rfl rfl rfl rfl
  · exact State.takeDramRead_leaves e
  · exact State.takeBufferRead_leaves e

theorem State.takeRequest_leaves {r : Request} (e : s.takeRequest r = some u) :
    s.Leaves Ring.StaysWhileActive k u := by
  cases r with
  | cellWrite cell data => exact State.takeCellWrite_leaves e
  | wordWrite cell w data => exact State.takeWordWrite_leaves e
  | cellRead cell tag => exact (State.takeCellRead_leaves e).mono Ring.Stays.whileActive
  | wordRead cell w tag => exact (State.takeWordRead_leaves e).mono Ring.Stays.whileActive

end

/-! ### Events -/

section
variable {k : Fin 64} {s : State}

/-- A sending can complete a soft reset, and otherwise leaves every ring (R108, R118). -/
theorem State.sendClaim_leaves (n : Nat) (s : State) : s.Leaves Ring.StaysOrStops k (s.sendClaim n) := by
  cases h : s.hst.slot? n with
  | none => unfold State.sendClaim; rw [h]; exact ⟨rfl, rfl, rfl, .inr rfl⟩
  | some x =>
    rcases State.sendClaim_cases h with ⟨-, -, e⟩ | ⟨-, e⟩ <;> rw [e]
    · exact (State.checkFlush_leaves _).after rfl rfl rfl rfl
    · exact ⟨rfl, rfl, rfl, .inr rfl⟩

/-- A retirement's completion can complete a soft reset, and otherwise leaves every ring (R113, R118). -/
theorem State.completeRetirement_leaves (n : Nat) (s : State) :
    s.Leaves Ring.StaysOrStops k (s.completeRetirement n) := by
  cases h : s.hst.slot? n with
  | none => unfold State.completeRetirement; rw [h]; exact ⟨rfl, rfl, rfl, .inr rfl⟩
  | some x =>
    rcases State.completeRetirement_cases h with ⟨-, e⟩ | ⟨-, e⟩ | ⟨-, e⟩ <;> rw [e]
    · exact (State.checkFlush_leaves _).after rfl rfl rfl rfl
    · exact ⟨rfl, rfl, rfl, .inr rfl⟩
    · exact ⟨rfl, rfl, rfl, .inr rfl⟩

theorem State.sendResponse_leaves (r : Response) (s : State) : s.Leaves Ring.StaysOrStops k (s.sendResponse r) := by
  unfold State.sendResponse
  split
  · exact (State.sendClaim_leaves _ _).after rfl rfl rfl rfl
  · exact ⟨rfl, rfl, rfl, .inr rfl⟩

theorem State.linkDown_leaves (s : State) : s.Leaves Ring.Stays k s.linkDown := by
  rcases s.linkDown_cases with ⟨-, h⟩ | ⟨-, h⟩ | ⟨-, h⟩ <;> rw [h] <;> exact .of_rings rfl rfl rfl rfl

theorem State.receiveFrame_leaves (frame : List Byte) (s : State) : s.Leaves Ring.Stays k (s.receiveFrame frame) := by
  rcases s.receiveFrame_cases frame with ⟨-, h⟩ | ⟨r, -, ⟨-, h⟩ | ⟨-, h⟩⟩ <;> rw [h] <;>
    exact .of_rings rfl rfl rfl rfl

theorem State.expireRefresh_leaves (s : State) : s.Leaves Ring.Stays k s.expireRefresh := by
  unfold State.expireRefresh
  split <;> exact .of_rings rfl rfl rfl rfl

theorem State.completeRead_leaves (e : ReadEntry) (dropped : Bool) (s : State) :
    s.Leaves Ring.Stays k (s.completeRead e dropped) := by
  unfold State.completeRead
  split <;> exact .of_rings rfl rfl rfl rfl

theorem State.takeIf_leaves (named : Bool) (s : State) : s.Leaves Ring.StaysWhileActive k (s.takeIf named) := by
  have same : s.Leaves Ring.StaysWhileActive k s := ⟨rfl, rfl, rfl, fun _ _ => rfl⟩
  unfold State.takeIf State.takeHead
  split
  · split
    · exact same
    · split
      · rename_i taken
        exact State.Leaves.settle (.after (State.takeRequest_leaves taken) rfl rfl rfl rfl)
      · exact same
  · exact same

end

/-! ### The commands -/

/-- What the statement says of one run of a command. -/
structure Instr.MovesOnlyItsOwn (c : Instr) (s t : State) : Prop where
  dram : c ≠ .writeCompletion → c ≠ .retirementCompletion → t.dram = s.dram
  capacity : (∀ capsel, c ≠ .rstnRise capsel) → t.capacity = s.capacity
  epoch : c ≠ .epochExpiry → t.sje.epoch = s.sje.epoch
  estimate : c ≠ .epochExpiry → ∀ k, (s.ring k).StaysWhileActive (t.ring k)

section
variable {c : Instr} {s t u : State}

/-- An event that moves none of the named values. -/
theorem Instr.MovesOnlyItsOwn.of_leaves (h : ∀ k, s.Leaves Ring.StaysWhileActive k t) : Instr.MovesOnlyItsOwn c s t :=
  ⟨fun _ _ => (h 0).dram, fun _ => (h 0).capacity, fun _ => (h 0).epoch, fun _ k => (h k).ring⟩

/-- A command whose event does not occur changes nothing (log entry 2). -/
theorem Instr.MovesOnlyItsOwn.refl : Instr.MovesOnlyItsOwn c s s := .of_leaves fun _ => ⟨rfl, rfl, rfl, fun _ _ => rfl⟩

/-- An event that leaves every estimate, and what follows it. -/
theorem Instr.MovesOnlyItsOwn.settle (h : ∀ k, s.Leaves Ring.Stays k u) : Instr.MovesOnlyItsOwn c s u.settle :=
  .of_leaves fun k => ((h k).mono Ring.Stays.whileActive).settle

/-- An event that can complete a soft reset, and what follows it. -/
theorem Instr.MovesOnlyItsOwn.settle_stops (h : ∀ k, s.Leaves Ring.StaysOrStops k u) :
    Instr.MovesOnlyItsOwn c s u.settle :=
  .of_leaves fun k => ((h k).mono Ring.StaysOrStops.whileActive).settle

/-- An event that leaves the rings, and what follows it. -/
theorem Instr.MovesOnlyItsOwn.settle_rings (dram : u.dram = s.dram) (capacity : u.capacity = s.capacity)
    (epoch : u.sje.epoch = s.sje.epoch) (rings : u.rings = s.rings) : Instr.MovesOnlyItsOwn c s u.settle :=
  .settle fun _ => .of_rings dram capacity epoch rings

theorem Instr.MovesOnlyItsOwn.ite {p : Prop} [Decidable p] (h : p → Instr.MovesOnlyItsOwn c s u) :
    Instr.MovesOnlyItsOwn c s (if p then u else s) := by
  split
  · exact h ‹_›
  · exact .refl

/-- A rise of RSTN samples CAP (R179). -/
theorem execRstnRise_movesOnlyItsOwn {capsel : Bool} (e : execRstnRise capsel s = .next t) :
    Instr.MovesOnlyItsOwn (.rstnRise capsel) s t := by
  cases e
  exact .ite fun _ => ⟨fun _ _ => rfl, fun h => absurd rfl (h capsel), fun _ => rfl, fun _ _ _ _ => rfl⟩

/-- An expiry moves the epoch number and the estimates (R53, R69). -/
theorem execEpochExpiry_movesOnlyItsOwn (e : execEpochExpiry s = .next t) :
    Instr.MovesOnlyItsOwn .epochExpiry s t := by
  cases e
  refine .ite fun _ => ⟨fun _ _ => ?_, fun _ => ?_, fun h => absurd rfl h, fun h => absurd rfl h⟩
  · rw [State.settle_dram, State.expireEpoch_eq]
  · rw [(State.settle_chooses _).capacity, State.expireEpoch_eq]

/-- The completion of a write moves the array (R123). -/
theorem execWriteCompletion_movesOnlyItsOwn (e : execWriteCompletion s = .next t) :
    Instr.MovesOnlyItsOwn .writeCompletion s t := by
  unfold execWriteCompletion at e
  split at e <;> cases e
  · rename_i w _
    have choices := (s.completeWrite w).settle_chooses
    exact ⟨fun h => absurd rfl h, fun _ => choices.capacity, fun _ => congrArg _ choices.sje,
      fun _ k _ _ => congrArg Ring.estimate (State.ring_of_rings choices.rings k)⟩
  all_goals exact .refl

/-- The completion of a retirement moves the array, and can complete a soft reset (R113, R118, R123). -/
theorem execRetirementCompletion_movesOnlyItsOwn (e : execRetirementCompletion s = .next t) :
    Instr.MovesOnlyItsOwn .retirementCompletion s t := by
  unfold execRetirementCompletion at e
  split at e <;> cases e
  · rename_i r _
    have frame (k : Fin 64) := ((State.completeRetirement_leaves (k := k) r.slot
      { s.freeChannel with dram := s.dram.store r.cell (.full r.data), dcc.inHand := none }).mono
        Ring.StaysOrStops.whileActive).settle
    exact ⟨fun _ h => absurd rfl h, fun _ => (frame 0).capacity, fun _ => (frame 0).epoch, fun _ k => (frame k).ring⟩
  all_goals exact .refl

theorem execReadCompletion_movesOnlyItsOwn (e : execReadCompletion s = .next t) : Instr.MovesOnlyItsOwn c s t := by
  unfold execReadCompletion at e
  split at e <;> cases e
  · exact .settle fun _ => State.completeRead_leaves _ _ _
  all_goals exact .refl

theorem execRefreshCompletion_movesOnlyItsOwn (e : execRefreshCompletion s = .next t) :
    Instr.MovesOnlyItsOwn c s t := by
  unfold execRefreshCompletion at e
  split at e <;> cases e
  · exact .settle_rings rfl rfl rfl rfl
  all_goals exact .refl

/-- The sending of a response can complete a soft reset (R118). -/
theorem execResponseSent_movesOnlyItsOwn (e : execResponseSent s = .next t) : Instr.MovesOnlyItsOwn c s t := by
  unfold execResponseSent at e
  split at e
  · cases e; exact .refl
  · cases e; exact .refl
  · split at e <;> cases e
    · exact .settle_stops fun _ => State.sendResponse_leaves _ _
    · exact .settle_rings rfl rfl rfl rfl

theorem execCreditFrameSent_movesOnlyItsOwn (e : execCreditFrameSent s = .next t) : Instr.MovesOnlyItsOwn c s t := by
  unfold execCreditFrameSent at e
  split at e <;> cases e
  · exact .refl
  · exact .settle_rings rfl rfl rfl rfl
  · exact .refl

end

/-- Every command but a power-on reset moves only what is its own. -/
theorem exec_movesOnlyItsOwn {c : Instr} {s t : State} (e : exec c s = .next t)
    (running : ∀ cause, c ≠ .powerOnReset cause) : Instr.MovesOnlyItsOwn c s t := by
  cases c with
  | powerOnReset cause => exact absurd rfl (running cause)
  | rstnRise capsel => exact execRstnRise_movesOnlyItsOwn e
  | endOfInit => cases e; exact .ite fun _ => .settle_rings rfl rfl rfl rfl
  | laneLock lanes => cases e; exact .settle_rings rfl rfl rfl rfl
  | trainingSuccess => cases e; exact .ite fun _ => .settle_rings rfl rfl rfl rfl
  | trainingFailure => cases e; exact .ite fun _ => .of_leaves fun _ => ⟨rfl, rfl, rfl, fun _ _ => rfl⟩
  | laneLockLoss lane =>
    cases e
    exact .settle fun _ => (State.linkDown_leaves _).after rfl rfl rfl rfl
  | linkReset =>
    cases e
    split
    · exact .refl
    · exact .settle fun _ => s.linkDown_leaves
  | requestFrameArrival frame => cases e; exact .ite fun _ => .settle fun _ => s.receiveFrame_leaves frame
  | epochExpiry => exact execEpochExpiry_movesOnlyItsOwn e
  | refreshTimerExpiry => cases e; exact .ite fun _ => .settle fun _ => s.expireRefresh_leaves
  | readCompletion => exact execReadCompletion_movesOnlyItsOwn e
  | writeCompletion => exact execWriteCompletion_movesOnlyItsOwn e
  | retirementCompletion => exact execRetirementCompletion_movesOnlyItsOwn e
  | refreshCompletion => exact execRefreshCompletion_movesOnlyItsOwn e
  | quietTimerExpiry => cases e; exact .ite fun _ => .settle_rings rfl rfl rfl rfl
  | wakingEnd => cases e; exact .ite fun _ => .settle_rings rfl rfl rfl rfl
  | responseSent => exact execResponseSent_movesOnlyItsOwn e
  | creditFrameSent => exact execCreditFrameSent_movesOnlyItsOwn e
  | pulseEnd line => cases e; exact .of_leaves fun _ => ⟨rfl, rfl, rfl, fun _ _ => rfl⟩
  | _ => cases e; exact .of_leaves fun _ => s.takeIf_leaves _

/-- Settles O56, command by command. -/
theorem onlyTheirEventsMoveThem : Obligations.OnlyTheirEventsMoveThem := by
  intro c s t e running
  obtain ⟨dram, capacity, epoch, estimate⟩ := exec_movesOnlyItsOwn e running
  exact ⟨dram, capacity, epoch, estimate⟩

end Sys2Proof.Machine
end

section
/-! PROOFS. The epoch expiry outside the rings: the device settings it takes, the ages of the slots, and the flags and
pulses of the alert lines, where each line takes the events of its own group one after another. Settles O31 and O33. -/

namespace Sys2Proof.Machine

/-- A running epoch timer's expiry, and what follows it (R53). -/
theorem exec_epochExpiry {s : State} (timer : s.sje.timer ≠ none) :
    exec .epochExpiry s = .next s.expireEpoch.settle :=
  congrArg Host.Outcome.next (if_pos (Option.isSome_iff_ne_none.mpr timer))

/-- The age of a slot stays at most 255 (R115). -/
theorem Slot.expire_admitted (now : Epoch) (x : Slot) : x.expire now =
    { x with admitted := if 255 < (now - x.admitted).toNat then now - 255 else x.admitted } := by
  unfold Slot.expire Slot.age
  split <;> rfl

/-- Settles O31: everything of the expiry but rings and alert lines, with the clamps and the ageing written out. -/
theorem epochExpiryTakesDeviceSettings : Obligations.EpochExpiryTakesDeviceSettings := by
  intro s timer
  refine ⟨s.expireEpoch, exec_epochExpiry timer, ?_⟩
  intro el now
  have slots : s.hst.slots.map (Slot.expire now) = s.hst.slots.map (fun x =>
      { x with admitted := if 255 < (now - x.admitted).toNat then now - 255 else x.admitted }) :=
    List.map_congr_left fun x _ => x.expire_admitted now
  have rings : s.expireEpoch.rings =
      s.rings.map (Ring.expire now (clampWindow s.swu.stagedW) (clampStallLimit s.swu.stagedSl)) := by
    rw [State.expireEpoch_eq]
  rw [← slots, rings]
  exact s.expireEpoch_eq

/-! ### A line that takes events (R174, R176) -/

/-- An enabled flag of the line has gone from clear to set. -/
def AlertLine.Triggered (l m : AlertLine) : Prop :=
  ∃ i, l.flags.getLsbD i = false ∧ m.flags.getLsbD i = true ∧ l.mask.getLsbD i = true

/-- A line after events: its settings stay, no flag is cleared, and its pulse starts where an enabled flag has gone from
clear to set. -/
structure AlertLine.Takes (l m : AlertLine) : Prop where
  mode : m.mode = l.mode
  width : m.width = l.width
  mask : m.mask = l.mask
  sets : ∀ i, l.flags.getLsbD i = true → m.flags.getLsbD i = true
  starts : l.Triggered m → m.pulse = l.startPulse
  keeps : ¬l.Triggered m → m.pulse = l.pulse

section
variable {l m n : AlertLine}

theorem AlertLine.Takes.refl (l : AlertLine) : l.Takes l where
  mode := rfl
  width := rfl
  mask := rfl
  sets _ h := h
  starts := fun ⟨_, clear, set, _⟩ => absurd (clear.symm.trans set) nofun
  keeps _ := rfl

/-- While a pulse runs none starts (R176). -/
theorem AlertLine.startPulse_of_running (h : l.pulse ≠ none) : l.startPulse = l.pulse := by
  obtain ⟨p, running⟩ := Option.ne_none_iff_exists'.mp h
  unfold AlertLine.startPulse
  rw [running]

/-- The pulse of a line on which none runs: at the mode's level and with the line's width, in a pulse mode alone (R176). -/
theorem AlertLine.startPulse_of_rest (h : l.pulse = none) :
    l.startPulse = l.mode.pulseLevel?.map (fun level => { level := level, width := l.width }) := by
  unfold AlertLine.startPulse
  rw [h]

/-- A pulse that runs or has started runs on, and a pulse that has not started can start still. -/
theorem AlertLine.startPulse_eq (mode : m.mode = l.mode) (width : m.width = l.width)
    (pulse : m.pulse = l.pulse ∨ m.pulse = l.startPulse) : m.startPulse = l.startPulse := by
  by_cases started : m.pulse = none
  · have rest : l.pulse = none := by
      by_contra running
      rw [AlertLine.startPulse_of_running running, or_self] at pulse
      exact running (pulse.symm.trans started)
    rw [AlertLine.startPulse_of_rest started, AlertLine.startPulse_of_rest rest, mode, width]
  · rw [AlertLine.startPulse_of_running started]
    refine pulse.elim (fun h => ?_) id
    rw [h, AlertLine.startPulse_of_running (h ▸ started)]

theorem AlertLine.Takes.startPulse (h : l.Takes m) : m.startPulse = l.startPulse :=
  AlertLine.startPulse_eq h.mode h.width ((em (l.Triggered m)).symm.imp h.keeps h.starts)

theorem AlertLine.Takes.pulse_of_starts (h : l.Takes m) (rest : l.pulse = none) (triggered : l.Triggered m) :
    m.pulse = l.mode.pulseLevel?.map (fun level => { level := level, width := l.width }) :=
  (h.starts triggered).trans (AlertLine.startPulse_of_rest rest)

/-- A running pulse goes on, and in a level mode none starts (R176). -/
theorem AlertLine.Takes.pulse_of_not_starts (h : l.Takes m)
    (not : ¬(l.pulse = none ∧ l.Triggered m) ∨ l.mode.pulseLevel? = none) : m.pulse = l.pulse := by
  by_cases triggered : l.Triggered m
  · rw [h.starts triggered]
    by_cases rest : l.pulse = none
    · rw [AlertLine.startPulse_of_rest rest, rest, not.resolve_left (not_not.mpr ⟨rest, triggered⟩), Option.map_none]
    · exact AlertLine.startPulse_of_running rest
  · exact h.keeps triggered

/-- A flag that is set in the end was set by the first events or by the later ones. -/
theorem AlertLine.Takes.triggered_iff (a : l.Takes m) (b : m.Takes n) :
    l.Triggered n ↔ l.Triggered m ∨ m.Triggered n := by
  constructor
  · rintro ⟨i, clear, set, enabled⟩
    cases first : m.flags.getLsbD i with
    | true => exact .inl ⟨i, clear, first, enabled⟩
    | false => exact .inr ⟨i, first, set, a.mask ▸ enabled⟩
  · rintro (⟨i, clear, set, enabled⟩ | ⟨i, clear, set, enabled⟩)
    · exact ⟨i, clear, b.sets i set, enabled⟩
    · exact ⟨i, Bool.eq_false_iff.mpr fun h => Bool.eq_false_iff.mp clear (a.sets i h), set, a.mask ▸ enabled⟩

theorem AlertLine.Takes.trans (a : l.Takes m) (b : m.Takes n) : l.Takes n where
  mode := b.mode.trans a.mode
  width := b.width.trans a.width
  mask := b.mask.trans a.mask
  sets i h := b.sets i (a.sets i h)
  starts h := by
    by_cases later : m.Triggered n
    · exact (b.starts later).trans a.startPulse
    · exact (b.keeps later).trans (a.starts (((a.triggered_iff b).mp h).resolve_right later))
  keeps h := by
    obtain ⟨first, later⟩ := not_or.mp (mt (a.triggered_iff b).mpr h)
    exact (b.keeps later).trans (a.keeps first)

theorem AlertLine.triggered_raise_iff (e : Event) (l : AlertLine) :
    l.Triggered (l.raise e) ↔ l.flags &&& e.bit = 0 ∧ l.mask &&& e.bit ≠ 0 := by
  rw [Event.and_bit_eq_zero, Ne, Event.and_bit_eq_zero, Bool.not_eq_false]
  constructor
  · rintro ⟨i, clear, set, enabled⟩
    rw [AlertLine.getLsbD_raise, clear, Bool.false_or, decide_eq_true_eq] at set
    subst set
    exact ⟨clear, enabled⟩
  · rintro ⟨clear, enabled⟩
    exact ⟨e.number, clear, by rw [AlertLine.getLsbD_raise, decide_eq_true rfl, Bool.or_true], enabled⟩

theorem AlertLine.raise_takes (e : Event) (l : AlertLine) : l.Takes (l.raise e) where
  mode := l.raise_mode e
  width := l.raise_width e
  mask := l.raise_mask e
  sets i h := by rw [AlertLine.getLsbD_raise, h, Bool.true_or]
  starts h := by
    unfold AlertLine.raise
    rw [if_pos ((l.triggered_raise_iff e).mp h)]
  keeps h := by
    unfold AlertLine.raise
    rw [if_neg (mt (l.triggered_raise_iff e).mpr h)]

end

/-! ### The events of an expiry (R73) -/

/-- The event of one ring at an expiry, raised on the line of its alert group. -/
def State.raiseExpiryEvent (before : Vector Ring 64) (s t : State) (k : Fin 64) : State :=
  match expiryEvent before[k].state (s.ring k).state with
  | some e => t.raiseOn (s.ring k).settings.alertGroup e
  | none => t

theorem State.raiseExpiryEvents_eq_foldl (before : Vector Ring 64) (s : State) :
    s.raiseExpiryEvents before = (List.finRange 64).foldl (s.raiseExpiryEvent before) s := rfl

/-- The expiry has an event with this number for this line, from a ring as it was before and is after (R73). -/
def Ring.Flags (r v : Ring) (l : Fin 4) (i : Nat) : Prop :=
  ∃ e, expiryEvent r.state v.state = some e ∧ v.settings.alertGroup = l ∧ i = e.number

/-- Only the entries into INCAST and STALLED are events, numbered 0 and 1 (R73, R178). -/
theorem Ring.flags_iff {r v : Ring} {l : Fin 4} {i : Nat} : r.Flags v l i ↔
    r.state ≠ v.state ∧ v.settings.alertGroup = l ∧ (v.state = .incast ∧ i = 0 ∨ v.state = .stalled ∧ i = 1) := by
  unfold Ring.Flags
  simp only [expiryEvent_eq_some]
  constructor
  · rintro ⟨e, ⟨ne, ⟨state, rfl⟩ | ⟨state, rfl⟩⟩, group, rfl⟩
    · exact ⟨ne, group, .inl ⟨state, rfl⟩⟩
    · exact ⟨ne, group, .inr ⟨state, rfl⟩⟩
  · rintro ⟨ne, group, ⟨state, rfl⟩ | ⟨state, rfl⟩⟩
    · exact ⟨_, ⟨ne, .inl ⟨state, rfl⟩⟩, group, rfl⟩
    · exact ⟨_, ⟨ne, .inr ⟨state, rfl⟩⟩, group, rfl⟩

theorem Ring.flags_incastOn {r v : Ring} {l : Fin 4} :
    r.Flags v l 0 ↔ r.state ≠ .incast ∧ v.state = .incast ∧ v.settings.alertGroup = l := by
  rw [Ring.flags_iff]
  constructor
  · rintro ⟨ne, group, ⟨state, -⟩ | ⟨-, h⟩⟩
    · exact ⟨state ▸ ne, state, group⟩
    · cases h
  · rintro ⟨ne, state, group⟩
    exact ⟨state ▸ ne, group, .inl ⟨state, rfl⟩⟩

theorem Ring.flags_stallOn {r v : Ring} {l : Fin 4} :
    r.Flags v l 1 ↔ r.state ≠ .stalled ∧ v.state = .stalled ∧ v.settings.alertGroup = l := by
  rw [Ring.flags_iff]
  constructor
  · rintro ⟨ne, group, ⟨-, h⟩ | ⟨state, -⟩⟩
    · cases h
    · exact ⟨state ▸ ne, state, group⟩
  · rintro ⟨ne, state, group⟩
    exact ⟨state ▸ ne, group, .inr ⟨state, rfl⟩⟩

section
variable (before : Vector Ring 64) (s : State) (l : Fin 4)

/-- One ring's event reaches the line of its group alone. -/
theorem State.raiseExpiryEvent_line (t : State) (k : Fin 64) :
    t.alerts[l].Takes (s.raiseExpiryEvent before t k).alerts[l] ∧
      ∀ i, (s.raiseExpiryEvent before t k).alerts[l].flags.getLsbD i = true ↔
        t.alerts[l].flags.getLsbD i = true ∨ before[k].Flags (s.ring k) l i := by
  unfold State.raiseExpiryEvent Ring.Flags
  cases event : expiryEvent before[k].state (s.ring k).state with
  | none => exact ⟨.refl _, fun i => by simp⟩
  | some e =>
    by_cases group : (s.ring k).settings.alertGroup = l
    · have line : (t.raiseOn (s.ring k).settings.alertGroup e).alerts[l] = t.alerts[l].raise e := by
        subst group; simp
      dsimp only
      rw [line]
      refine ⟨AlertLine.raise_takes e _, fun i => ?_⟩
      rw [AlertLine.getLsbD_raise, Bool.or_eq_true, decide_eq_true_eq]
      simp [group]
    · have line : (t.raiseOn (s.ring k).settings.alertGroup e).alerts[l] = t.alerts[l] := by
        simp [Vector.getElem_set_ne, Fin.val_ne_of_ne group]
      dsimp only
      rw [line]
      exact ⟨.refl _, fun i => by simp [group]⟩

/-- The events of a list of rings, one after another. -/
theorem State.foldl_raiseExpiryEvent_line (ks : List (Fin 64)) (t : State) :
    t.alerts[l].Takes (ks.foldl (s.raiseExpiryEvent before) t).alerts[l] ∧
      ∀ i, (ks.foldl (s.raiseExpiryEvent before) t).alerts[l].flags.getLsbD i = true ↔
        t.alerts[l].flags.getLsbD i = true ∨ ∃ k ∈ ks, before[k].Flags (s.ring k) l i := by
  induction ks generalizing t with
  | nil => exact ⟨.refl _, fun i => by simp⟩
  | cons k ks ih =>
    obtain ⟨first, flags⟩ := s.raiseExpiryEvent_line before l t k
    obtain ⟨later, flags'⟩ := ih (s.raiseExpiryEvent before t k)
    refine ⟨first.trans later, fun i => ?_⟩
    rw [List.foldl_cons, flags' i, flags i, List.exists_mem_cons_iff, or_assoc]

/-- Each line after the events of all rings. -/
theorem State.raiseExpiryEvents_line :
    s.alerts[l].Takes (s.raiseExpiryEvents before).alerts[l] ∧
      ∀ i, (s.raiseExpiryEvents before).alerts[l].flags.getLsbD i = true ↔
        s.alerts[l].flags.getLsbD i = true ∨ ∃ k : Fin 64, before[k].Flags ((s.raiseExpiryEvents before).ring k) l i := by
  have rings (k : Fin 64) : (s.raiseExpiryEvents before).ring k = s.ring k := by rw [State.raiseExpiryEvents_eq]; rfl
  obtain ⟨takes, flags⟩ := s.foldl_raiseExpiryEvent_line before l (List.finRange 64) s
  simp only [rings]
  rw [State.raiseExpiryEvents_eq_foldl]
  exact ⟨takes, fun i => by simpa using flags i⟩

end

/-- Each line after an expiry: the flags that were set, and those of the rings' events for its group (R73, R174). -/
theorem State.expireEpoch_line (s : State) (l : Fin 4) :
    s.alerts[l].Takes s.expireEpoch.alerts[l] ∧
      ∀ i, s.expireEpoch.alerts[l].flags.getLsbD i = true ↔
        s.alerts[l].flags.getLsbD i = true ∨ ∃ k, (s.ring k).Flags (s.expireEpoch.ring k) l i := by
  obtain ⟨u, expiry, alerts⟩ : ∃ u : State, s.expireEpoch = u.raiseExpiryEvents s.rings ∧ u.alerts = s.alerts :=
    ⟨_, rfl, rfl⟩
  rw [expiry, ← alerts]
  exact u.raiseExpiryEvents_line s.rings l

/-- Settles O33: what follows the expiry leaves the lines and the rings, and each line takes its group's events. -/
theorem expiryEventsFlagTheirLines : Obligations.ExpiryEventsFlagTheirLines := by
  intro s timer
  refine ⟨_, exec_epochExpiry timer, fun l => ?_⟩
  obtain ⟨takes, flags⟩ := s.expireEpoch_line l
  simp only [State.settle_alerts, State.ring_of_rings (State.settle_chooses _).rings]
  refine ⟨?_, ?_, fun i hi => ?_, takes.mode, takes.width, takes.mask,
    ?_⟩
  · simp only [flags, Ring.flags_incastOn]
  · simp only [flags, Ring.flags_stallOn]
  · rw [Bool.eq_iff_iff, flags i]
    refine or_iff_left ?_
    rintro ⟨k, event⟩
    obtain ⟨-, -, ⟨-, rfl⟩ | ⟨-, rfl⟩⟩ := Ring.flags_iff.mp event <;> omega
  refine ⟨fun ⟨rest, triggered⟩ mode => ?_, fun ⟨rest, triggered⟩ mode => ?_, fun h => takes.pulse_of_not_starts ?_⟩
  · rw [takes.pulse_of_starts rest triggered, mode]; rfl
  · rw [takes.pulse_of_starts rest triggered, mode]; rfl
  · refine h.imp id ?_
    rintro (mode | mode) <;> rw [mode] <;> rfl

end Sys2Proof.Machine
end

section
/-! PROOFS. The drain update as a step towards 16·c in natural numbers, with the limit of its iterates, and the formulas of
the sojourn and the share. Settles O57. -/

namespace Sys2Proof.Machine

/-! ### The drain update (R61, R62) -/

/-- The quotient of a negative number, rounded toward minus infinity, is the positive one's rounded up. -/
theorem neg_natCast_ediv (g : Nat) {y : Nat} (pos : 0 < y) :
    -(g : Int) / (y : Int) = -(((g + (y - 1)) / y : Nat) : Int) := by
  have parts := Nat.div_add_mod (g + (y - 1)) y
  have lt := Nat.mod_lt (g + (y - 1)) pos
  have parts' : (y : Int) * (((g + (y - 1)) / y : Nat) : Int) + (((g + (y - 1)) % y : Nat) : Int) = g + (y - 1) := by
    have cast : ((g + (y - 1) : Nat) : Int) = g + (y - 1) := by omega
    rw [← cast]
    exact_mod_cast parts
  refine ((Int.ediv_emod_unique (r := (y : Int) - 1 - (((g + (y - 1)) % y : Nat) : Int)) (by omega)).mpr
    ⟨?_, by omega, by omega⟩).1
  rw [mul_neg]
  omega

section
variable {d c : Nat} (dw : Nat)

/-- From below D rises by the whole part of the quotient. -/
theorem drainUpdate_of_le (h : d ≤ 16 * c) : drainUpdate d c dw = d + (16 * c - d) / 2 ^ dw := by
  unfold drainUpdate
  have gap : 16 * (c : Int) - d = ((16 * c - d : Nat) : Int) := by omega
  rw [gap, ← Int.natCast_ediv, ← Nat.cast_add, Int.toNat_natCast]

/-- From above D falls by the quotient rounded up. -/
theorem drainUpdate_of_ge (h : 16 * c ≤ d) :
    drainUpdate d c dw = d - (d - 16 * c + (2 ^ dw - 1)) / 2 ^ dw := by
  unfold drainUpdate
  have gap : 16 * (c : Int) - d = -((d - 16 * c : Nat) : Int) := by omega
  rw [gap, neg_natCast_ediv _ (Nat.two_pow_pos dw)]
  omega

/-- From above D does not pass 16·c, and falls until it is there. -/
theorem drainUpdate_falls (h : 16 * c ≤ d) :
    16 * c ≤ drainUpdate d c dw ∧ drainUpdate d c dw ≤ d ∧ (16 * c < d → drainUpdate d c dw < d) := by
  have pos := Nat.two_pow_pos dw
  have notPast : (d - 16 * c + (2 ^ dw - 1)) / 2 ^ dw ≤ d - 16 * c := by
    have := Nat.le_mul_of_pos_left (d - 16 * c) pos
    exact (Nat.div_le_iff_le_mul_add_pred pos).mpr (by omega)
  have moves (gap : 16 * c < d) : 0 < (d - 16 * c + (2 ^ dw - 1)) / 2 ^ dw := Nat.div_pos (by omega) pos
  rw [drainUpdate_of_ge dw h]
  generalize (d - 16 * c + (2 ^ dw - 1)) / 2 ^ dw = quotient at notPast moves
  exact ⟨by omega, Nat.sub_le _ _, fun gap => Nat.sub_lt (by omega) (moves gap)⟩

/-- From below D does not pass 16·c either. -/
theorem drainUpdate_rises (h : d ≤ 16 * c) : d ≤ drainUpdate d c dw ∧ drainUpdate d c dw ≤ 16 * c := by
  have notPast := Nat.div_le_self (16 * c - d) (2 ^ dw)
  rw [drainUpdate_of_le dw h]
  exact ⟨Nat.le_add_right _ _, by omega⟩

/-- After `m` epochs the distance from above has closed by at least `m`, as long as there is any. -/
theorem drainUpdate_iterate (h : 16 * c ≤ d) (m : Nat) :
    16 * c ≤ (fun x => drainUpdate x c dw)^[m] d ∧ (fun x => drainUpdate x c dw)^[m] d ≤ max (16 * c) (d - m) := by
  induction m with
  | zero => exact ⟨h, le_max_right _ _⟩
  | succ m ih =>
    obtain ⟨above, closed⟩ := ih
    obtain ⟨above', le, falls⟩ := drainUpdate_falls dw above
    rw [Function.iterate_succ_apply']
    refine ⟨above', ?_⟩
    rcases above.eq_or_lt with there | gap
    · exact le_max_of_le_left (there ▸ le)
    · have := falls gap
      omega

end

/-! ### The statement -/

/-- The limits and formulas of the drain update (R61, R62). -/
theorem drainUpdate_follows (d c dw : Nat) :
    min d (16 * c) ≤ drainUpdate d c dw ∧ drainUpdate d c dw ≤ max d (16 * c) ∧
    (16 * c < d → drainUpdate d c dw < d) ∧
    (16 * c ≤ d → drainUpdate d c dw = d - (d - 16 * c + (2 ^ dw - 1)) / 2 ^ dw) ∧
    (16 * c ≤ d → ∃ n, ∀ m, n ≤ m → (fun x => drainUpdate x c dw)^[m] d = 16 * c) ∧
    (d ≤ 16 * c → drainUpdate d c dw = d + (16 * c - d) / 2 ^ dw) ∧
    (d ≤ 16 * c → 16 * c - d < 2 ^ dw → drainUpdate d c dw = d) := by
  have between : min d (16 * c) ≤ drainUpdate d c dw ∧ drainUpdate d c dw ≤ max d (16 * c) := by
    rcases Nat.le_total d (16 * c) with h | h
    · have := drainUpdate_rises dw h; omega
    · have := drainUpdate_falls dw h; omega
  refine ⟨between.1, between.2, fun h => (drainUpdate_falls dw h.le).2.2 h, drainUpdate_of_ge dw, fun h => ?_,
    drainUpdate_of_le dw, fun h short => ?_⟩
  · refine ⟨d - 16 * c, fun m hm => ?_⟩
    have := drainUpdate_iterate dw h m
    omega
  · rw [drainUpdate_of_le dw h, Nat.div_eq_of_lt short, Nat.add_zero]

/-- The share follows the sojourn between the effective thresholds (R65, R66). -/
theorem Ring.shareAt_follows (r : Ring) (q : Nat) (h : r.settings.tl < r.settings.th) :
    let t := sojourn q r.drain
    let low := r.settings.tl / 2 ^ r.ramp
    let high := r.settings.th / 2 ^ r.ramp
    (t < low → r.shareAt q = 0) ∧ (high ≤ t → r.shareAt q = 256) ∧
    (low ≤ t → t < high → r.shareAt q = r.settings.ps * (t - low) / (high - low)) ∧
    (r.settings.ps ≤ 256 → r.shareAt q ≤ 256) := by
  intro t low high
  have order : low ≤ high := Nat.div_le_div_right h.le
  have shareAt : r.shareAt q = if t < low then 0 else if high ≤ t then 256 else
      r.settings.ps * (t - low) / (high - low) := rfl
  refine ⟨fun below => ?_, fun above => ?_, fun notBelow notAbove => ?_, fun peak => share_le peak⟩ <;> rw [shareAt]
  · rw [if_pos below]
  · rw [if_neg (order.trans above).not_gt, if_pos above]
  · rw [if_neg notBelow.not_gt, if_neg notAbove.not_ge]

/-- Settles O57: the drain update as a step in natural numbers, and the branches of the sojourn and the share. -/
theorem drainSojournAndShareFollowTheirFormulas : Obligations.DrainSojournAndShareFollowTheirFormulas := by
  refine ⟨drainUpdate_follows, fun q d => ⟨fun empty => ?_, fun some none => ?_, fun some flows => ?_⟩,
    Ring.shareAt_follows⟩ <;> unfold sojourn
  · rw [if_pos empty]
  · rw [if_neg some.ne', if_pos none]
  · rw [if_neg some.ne', if_neg flows.ne']

end Sys2Proof.Machine
end

section
/-! PROOFS. The decisions at the two extremes of the share, and the sojourns that bring a ring to them. Settles O19. -/

namespace Sys2Proof.Machine

theorem PacketRecord.markKind_ne_exempt {x : PacketRecord} (h : x.exempt = false) : x.markKind ≠ .exempt := by
  unfold PacketRecord.markKind
  rw [h]
  cases x.kind <;> cases x.ecn <;> simp [Machine.markKind]

/-! ### The table of R79 at the two extremes -/

/-- A share of 0 leaves A below 256, so no packet of any kind is marked. -/
theorem decideMark_zero {kind : MarkKind} (hk : kind ≠ .exempt) (policy : Policy) {a : Nat} (ha : a ≤ 255) :
    decideMark kind policy a 0 = { decision := .pass, credit := a } :=
  decideMark_of_lt hk policy (Nat.lt_succ_of_le ha)

/-- A share of 256 is a whole mark, so that A comes back to where it was. -/
theorem decideMark_markable_full (policy : Policy) (a : Nat) :
    decideMark .markable policy a 256 = { decision := .mark, credit := a } := by
  rw [decideMark_markable (Nat.le_add_left 256 a), Nat.add_sub_cancel]

theorem decideMark_alreadyCe_full (policy : Policy) (a : Nat) :
    decideMark .alreadyCe policy a 256 = { decision := .ceAlready, credit := a } := by
  rw [decideMark_alreadyCe (Nat.le_add_left 256 a), Nat.add_sub_cancel]

theorem decideMark_notMarkable_full (policy : Policy) (a : Nat) :
    decideMark .notMarkable policy a 256 =
      { decision := .unmarkable, credit := if policy = .spend then a else 255 } := by
  cases policy with
  | spend => rw [decideMark_notMarkable_spend (Nat.le_add_left 256 a), Nat.add_sub_cancel, if_pos rfl]
  | carry => rw [decideMark_notMarkable_carry (Nat.le_add_left 256 a), if_neg nofun]

/-! ### The rings at the two extremes -/

section
variable {r : Ring} {x : PacketRecord} {q : Nat}

theorem Ring.verdict_of_shareAt_zero (share : r.shareAt q = 0) (credit : r.credit ≤ 255) (h : x.exempt = false) :
    r.verdict x q = { decision := .pass, credit := r.credit } := by
  rw [Ring.verdict, share, decideMark_zero (PacketRecord.markKind_ne_exempt h) _ credit]

theorem Ring.verdict_of_shareAt_full (share : r.shareAt q = 256) (h : x.markKind = .markable) :
    r.verdict x q = { decision := .mark, credit := r.credit } := by
  rw [Ring.verdict, share, h, decideMark_markable_full]

end

/-- A non-empty ring that nothing drains has the largest sojourn (R63). -/
theorem sojourn_undrained {q : Nat} (h : 0 < q) : sojourn q 0 = 65535 :=
  (drainSojournAndShareFollowTheirFormulas.2.1 q 0).2.1 h rfl

/-- Settles O19: the sojourn's place among the effective thresholds gives the share, and the share the row of R79. -/
theorem shareExtremesFixTheDecision : Obligations.ShareExtremesFixTheDecision := by
  refine ⟨fun kind policy a hk ha => ⟨decideMark_zero hk policy ha, ?_, ?_, ?_⟩, fun r x ok hth plain => ?_⟩
  · rintro rfl; exact decideMark_markable_full policy a
  · rintro rfl; exact decideMark_alreadyCe_full policy a
  · rintro rfl; exact decideMark_notMarkable_full policy a
  obtain ⟨_, _, _, _, _, order, _, _, credit⟩ := ok
  obtain ⟨shareBelow, shareAbove, _⟩ := r.shareAt_follows r.occ order
  refine ⟨fun below => Ring.verdict_of_shareAt_zero (shareBelow below) credit plain,
    fun above => Ring.verdict_of_shareAt_full (shareAbove above), fun occupied undrained => ?_⟩
  have longest : sojourn r.occ r.drain = 65535 := undrained ▸ sojourn_undrained occupied
  have full : r.shareAt r.occ = 256 := shareAbove (longest ▸ (Nat.div_le_self _ _).trans hth)
  exact ⟨longest, full, Ring.verdict_of_shareAt_full full⟩

end Sys2Proof.Machine
end

section
/-! PROOFS. The header rewrite: ones-complement addition of 16-bit words is addition modulo 65535 with two spellings of
zero, so that the updated checksum makes good the change of the TOS byte. Settles O59. -/

namespace Sys2Proof.Machine

/-! ### Ones-complement addition (R90) -/

theorem toNat_onesAdd (x y : BitVec 16) : (onesAdd x y).toNat =
    if x.toNat + y.toNat < 65536 then x.toNat + y.toNat else x.toNat + y.toNat - 65535 := by
  have := x.isLt
  have := y.isLt
  simp only [onesAdd, BitVec.toNat_ofNat]
  split_ifs <;> omega

/-- A sum whose carry comes back at the bottom is zero only where both words are. -/
theorem onesAdd_eq_zero_iff {x y : BitVec 16} : onesAdd x y = 0#16 ↔ x = 0#16 ∧ y = 0#16 := by
  simp only [← BitVec.toNat_inj, toNat_onesAdd, BitVec.toNat_ofNat]
  split_ifs <;> omega

theorem foldl_onesAdd_eq_zero_iff {ws : List (BitVec 16)} {x : BitVec 16} :
    ws.foldl onesAdd x = 0#16 ↔ x = 0#16 ∧ ∀ w ∈ ws, w = 0#16 := by
  induction ws generalizing x with
  | nil => simp
  | cons w ws ih => simp [ih, onesAdd_eq_zero_iff, and_assoc]

/-! ### The residue of a word -/

/-- A 16-bit word modulo 65535, where ones-complement addition is addition. -/
def residue (x : BitVec 16) : ZMod 65535 := (x.toNat : ZMod 65535)

theorem residue_onesAdd (x y : BitVec 16) : residue (onesAdd x y) = residue x + residue y := by
  simp only [residue, ← Nat.cast_add, ZMod.natCast_eq_natCast_iff', toNat_onesAdd]
  split_ifs <;> omega

/-- The complement of a word is its negative: the two make FFFFh. -/
theorem residue_not (x : BitVec 16) : residue (~~~x) = -residue x := by
  have := x.isLt
  rw [eq_neg_iff_add_eq_zero, residue, residue, ← Nat.cast_add, BitVec.toNat_not,
    show 2 ^ 16 - 1 - x.toNat + x.toNat = 65535 by omega, ZMod.natCast_self]

theorem residue_foldl_onesAdd (ws : List (BitVec 16)) (x : BitVec 16) :
    residue (ws.foldl onesAdd x) = residue x + (ws.map residue).sum := by
  induction ws generalizing x with
  | nil => simp
  | cons w ws ih => simp [ih, residue_onesAdd, add_assoc]

/-- Only 0 and FFFFh share a residue. -/
theorem eq_of_residue_eq {x y : BitVec 16} (h : residue x = residue y) (hx : x ≠ 0#16) (hy : y ≠ 0#16) : x = y := by
  have := x.isLt
  have := y.isLt
  rw [residue, residue, ZMod.natCast_eq_natCast_iff'] at h
  simp only [ne_eq, ← BitVec.toNat_inj, BitVec.toNat_ofNat] at *
  omega

/-! ### The updated checksum (R90, R91) -/

theorem residue_updatedChecksum (hc m m' : BitVec 16) :
    residue (updatedChecksum hc m m') = residue hc + residue m - residue m' := by
  rw [updatedChecksum, residue_not, residue_onesAdd, residue_onesAdd, residue_not, residue_not]
  ring

/-- The updated checksum is FFFFh only for a word that becomes 0. -/
theorem updatedChecksum_ne (hc m : BitVec 16) {m' : BitVec 16} (h : m' ≠ 0#16) :
    updatedChecksum hc m m' ≠ 0xFFFF#16 := by
  intro full
  have zero : onesAdd (onesAdd (~~~hc) (~~~m)) m' = 0#16 := by
    rw [← BitVec.not_not (b := onesAdd _ _), ← updatedChecksum, full]
    rfl
  exact h (onesAdd_eq_zero_iff.mp zero).2

/-- Replacing word `i` by another and the checksum, in word `j`, by its update keeps the sum of the words. -/
theorem sum_residue_set_updatedChecksum {ws : List (BitVec 16)} {i j : Nat} (m' : BitVec 16) (hi : i < ws.length)
    (hj : j < ws.length) (ne : i ≠ j) :
    (((ws.set i m').set j (updatedChecksum ws[j] ws[i] m')).map residue).sum = (ws.map residue).sum := by
  simp [List.map_set, List.sum_set', hi, hj, ne, residue_updatedChecksum]
  ring

/-! ### Bytes set in a byte string -/

theorem byteAt_set (bytes : List Byte) (k i : Nat) (b : Byte) :
    byteAt (bytes.set k b) i = if k = i ∧ k < bytes.length then b else byteAt bytes i := by
  simp only [byteAt, List.getD_eq_getElem?_getD, List.getElem?_set]
  by_cases same : k = i
  · subst same
    by_cases inside : k < bytes.length <;> simp [inside]
  · simp [same]

theorem highByte_append_lowByte (g : BitVec 16) : (highByte g ++ lowByte g : BitVec 16) = g := by
  have whole : g.extractLsb' 8 8 ++ g.extractLsb' 0 8 = g.extractLsb' 0 16 :=
    BitVec.extractLsb'_append_extractLsb'_eq_extractLsb' rfl
  exact whole.trans BitVec.extractLsb'_eq_self

theorem lowByte_append (a b : Byte) : lowByte (a ++ b) = b := BitVec.extractLsb'_append_eq_right

/-- A word whose low byte has its two low bits set. -/
theorem append_or_three_ne_zero (a b : Byte) : (a ++ (b ||| 3) : BitVec 16) ≠ 0#16 := by
  intro zero
  have low : b ||| 3 = 0#8 := (lowByte_append a (b ||| 3)).symm.trans (congrArg lowByte zero)
  exact absurd (BitVec.or_eq_zero_iff.mp low).2 (by decide)

/-! ### The rewrites -/

/-- What the IPv4 rewrite writes as the first word of the header: the TOS byte with its two low bits set (R89). -/
def markedWord (data : List Byte) (o : Nat) : BitVec 16 := byteAt data o ++ (byteAt data (o + 1) ||| 3)

/-- What the IPv4 rewrite writes as the checksum (R90). -/
def markedChecksum (data : List Byte) (o : Nat) : BitVec 16 :=
  updatedChecksum (beGroup data (o + 10)) (beGroup data o) (markedWord data o)

theorem rewriteIpv4_eq (o : Nat) (data : List Byte) : rewriteIpv4 o data =
    ((data.set (o + 1) (byteAt data (o + 1) ||| 3)).set (o + 10) (highByte (markedChecksum data o))).set (o + 11)
      (lowByte (markedChecksum data o)) := rfl

/-- The `h` words of the header at cell byte `o`, in network order. -/
def headerWords (o h : Nat) (bytes : List Byte) : List (BitVec 16) :=
  (List.range h).map (fun i => beGroup bytes (o + 2 * i))

@[simp] theorem headerWords_length (o h : Nat) (bytes : List Byte) : (headerWords o h bytes).length = h := by
  simp [headerWords]

section
variable {data : List Byte} {o : Nat}

theorem rewriteIpv4_length : (rewriteIpv4 o data).length = data.length := by simp [rewriteIpv4]

/-- Each byte of a rewritten IPv4 header. -/
theorem byteAt_rewriteIpv4 (inside : o + 12 ≤ data.length) (i : Nat) : byteAt (rewriteIpv4 o data) i =
    if i = o + 11 then lowByte (markedChecksum data o)
    else if i = o + 10 then highByte (markedChecksum data o)
    else if i = o + 1 then byteAt data (o + 1) ||| 3
    else byteAt data i := by
  have in1 : o + 1 < data.length := by omega
  have in10 : o + 10 < data.length := by omega
  have in11 : o + 11 < data.length := by omega
  simp only [rewriteIpv4_eq, byteAt_set, List.length_set, in1, in10, in11, and_true, eq_comm]

/-- Each word of a rewritten IPv4 header: the first carries the mark, the sixth is the checksum. -/
theorem beGroup_rewriteIpv4 (inside : o + 12 ≤ data.length) (i : Nat) : beGroup (rewriteIpv4 o data) (o + 2 * i) =
    if i = 5 then markedChecksum data o else if i = 0 then markedWord data o else beGroup data (o + 2 * i) := by
  rw [beGroup, byteAt_rewriteIpv4 inside, byteAt_rewriteIpv4 inside]
  by_cases checksum : i = 5
  · subst checksum
    simp [highByte_append_lowByte]
  by_cases first : i = 0
  · subst first
    simp [markedWord]
  -- Any other word holds none of the three bytes.
  iterate 8 rw [if_neg (by omega)]
  rfl

theorem headerWords_rewriteIpv4 {h : Nat} (inside : o + 12 ≤ data.length) :
    headerWords o h (rewriteIpv4 o data) =
      ((headerWords o h data).set 0 (markedWord data o)).set 5 (markedChecksum data o) := by
  apply List.ext_getElem
  · simp
  · intro i _ _
    simp [headerWords, List.getElem_set, beGroup_rewriteIpv4 inside, eq_comm]

/-- The checksum lies in the header, which begins with the word that holds the TOS byte: the rewrite keeps their sum. -/
theorem sum_headerWords_rewriteIpv4 {h : Nat} (long : 10 ≤ h) (inside : o + 2 * h ≤ data.length) :
    ((headerWords o h (rewriteIpv4 o data)).map residue).sum = ((headerWords o h data).map residue).sum := by
  have first : 0 < (headerWords o h data).length := by rw [headerWords_length]; omega
  have sixth : 5 < (headerWords o h data).length := by rw [headerWords_length]; omega
  have := sum_residue_set_updatedChecksum (markedWord data o) first sixth (by decide)
  rw [headerWords_rewriteIpv4 (by omega), ← this]
  simp [headerWords, markedChecksum]

/-- The ones-complement sum of a rewritten header is that of the header as stored, where that is not 0: both have one
residue, and the word with the mark keeps the new sum from 0. -/
theorem foldl_onesAdd_rewriteIpv4 {h : Nat} (long : 10 ≤ h) (inside : o + 2 * h ≤ data.length)
    (nonzero : (headerWords o h data).foldl onesAdd 0#16 ≠ 0#16) :
    (headerWords o h (rewriteIpv4 o data)).foldl onesAdd 0#16 = (headerWords o h data).foldl onesAdd 0#16 := by
  have marked : markedWord data o ∈ headerWords o h (rewriteIpv4 o data) :=
    List.mem_map.mpr ⟨0, List.mem_range.mpr (by omega), beGroup_rewriteIpv4 (by omega) 0⟩
  refine eq_of_residue_eq ?_ (fun zero => ?_) nonzero
  · rw [residue_foldl_onesAdd, residue_foldl_onesAdd, sum_headerWords_rewriteIpv4 long inside]
  · exact append_or_three_ne_zero _ _ ((foldl_onesAdd_eq_zero_iff.mp zero).2 _ marked)

end

/-- Settles O59: the rewrites byte by byte, and the header's sum by the residues of its words. -/
theorem rewriteChangesItsBytesAndKeepsTheChecksum : Obligations.RewriteChangesItsBytesAndKeepsTheChecksum := by
  refine ⟨toNat_onesAdd, fun data => ⟨rfl, fun o => ⟨rfl, rfl⟩⟩, fun data o h long inside => ?_,
    fun data o inside => ⟨List.length_set, fun i other => ?_, ?_⟩⟩
  · have reach : o + 12 ≤ data.length := by omega
    refine ⟨rewriteIpv4_length, fun i not1 not10 not11 => ?_, ?_, ?_, foldl_onesAdd_rewriteIpv4 long inside⟩
    · rw [byteAt_rewriteIpv4 reach, if_neg not11, if_neg not10, if_neg not1]
    · simp [byteAt_rewriteIpv4 reach]
    · have checksum : beGroup (rewriteIpv4 o data) (o + 10) = markedChecksum data o := beGroup_rewriteIpv4 reach 5
      exact checksum ▸ updatedChecksum_ne _ _ (append_or_three_ne_zero _ _)
  · rw [rewriteIpv6, byteAt_set, if_neg fun at1 => other at1.1.symm]
  · rw [rewriteIpv6, byteAt_set, if_pos ⟨rfl, inside⟩]

end Sys2Proof.Machine
end

section
/-! PROOFS. The store and the data under way in one step, said once: what the operations leave of the request path, the
slots and the DRAM queues, the outcomes of a take, and the choices of the channel. The invariants of the store, of the
sizes and of the store's counters are derived from these. -/

namespace Sys2Proof.Machine

/-! ### What an operation leaves -/

/-- An operation that leaves the request path, the slots, the DRAM queues, the retirement in hand and the operation in
flight. -/
structure State.KeepsWork (s t : State) : Prop where
  rfe : t.rfe = s.rfe
  slots : t.hst.slots = s.hst.slots
  readQ : t.dcc.readQ = s.dcc.readQ
  writeQ : t.dcc.writeQ = s.dcc.writeQ
  inHand : t.dcc.inHand = s.dcc.inHand
  inFlight : t.dcc.inFlight = s.dcc.inFlight

/-- An operation that leaves the counters of the store's balance (R121). -/
structure State.KeepsCounts (s t : State) : Prop where
  elided : t.counters.elided = s.counters.elided
  retired : t.counters.retired = s.counters.retired
  admitted : ∀ k, (t.ring k).counters.admitted = (s.ring k).counters.admitted

/-- An operation that leaves both. -/
structure State.KeepsStore (s t : State) : Prop where
  work : s.KeepsWork t
  counts : s.KeepsCounts t

section
variable {s t u : State}

theorem State.KeepsWork.refl (s : State) : s.KeepsWork s := ⟨rfl, rfl, rfl, rfl, rfl, rfl⟩

theorem State.KeepsWork.trans (a : s.KeepsWork t) (b : t.KeepsWork u) : s.KeepsWork u :=
  ⟨b.rfe.trans a.rfe, b.slots.trans a.slots, b.readQ.trans a.readQ, b.writeQ.trans a.writeQ, b.inHand.trans a.inHand,
    b.inFlight.trans a.inFlight⟩

theorem State.KeepsCounts.refl (s : State) : s.KeepsCounts s := ⟨rfl, rfl, fun _ => rfl⟩

theorem State.KeepsCounts.trans (a : s.KeepsCounts t) (b : t.KeepsCounts u) : s.KeepsCounts u :=
  ⟨b.elided.trans a.elided, b.retired.trans a.retired, fun k => (b.admitted k).trans (a.admitted k)⟩

/-- Where the rings stay, their admitted counters do. -/
theorem State.KeepsCounts.of_rings (rings : t.rings = s.rings) (elided : t.counters.elided = s.counters.elided)
    (retired : t.counters.retired = s.counters.retired) : s.KeepsCounts t :=
  ⟨elided, retired, fun k => by rw [State.ring_of_rings rings]⟩

/-- Where one ring changes, and its admitted counter stays, all of them do. -/
theorem State.KeepsCounts.of_setRing {k : Fin 64} {r : Ring} (admitted : r.counters.admitted = (s.ring k).counters.admitted) :
    s.KeepsCounts (s.setRing k r) := by
  refine ⟨rfl, rfl, fun j => ?_⟩
  rw [State.ring_setRing]
  split
  · rename_i e; rw [e]; exact admitted
  · rfl

theorem State.KeepsStore.refl (s : State) : s.KeepsStore s := ⟨.refl s, .refl s⟩

theorem State.KeepsStore.trans (a : s.KeepsStore t) (b : t.KeepsStore u) : s.KeepsStore u :=
  ⟨a.work.trans b.work, a.counts.trans b.counts⟩

/-- An operation that changes none of these. -/
theorem State.KeepsStore.of_eq (e : t = { s with
    rstnLow := t.rstnLow, capacity := t.capacity, clp := t.clp, poolFree := t.poolFree, sje := t.sje
    fanInWindow := t.fanInWindow, swu := t.swu, dram := t.dram, alerts := t.alerts, pending := t.pending
    counters := { t.counters with elided := s.counters.elided, retired := s.counters.retired } }) : s.KeepsStore t := by
  rw [e]
  exact ⟨⟨rfl, rfl, rfl, rfl, rfl, rfl⟩, .of_rings rfl rfl rfl⟩

end

/-! ### Tracking -/

/-- The tracking of a write counts no admission and no bypass. -/
theorem State.trackWrite_tallies (s : State) (k : Fin 64) (p : Nat) (sm : Option Summary) (j : Fin 64) :
    ((s.trackWrite k p sm).ring j).counters.admitted = (s.ring j).counters.admitted ∧
      ((s.trackWrite k p sm).ring j).counters.bypassed = (s.ring j).counters.bypassed := by
  by_cases e : j = k
  · subst e
    obtain ⟨_, _, _, _, ring⟩ := s.trackWrite_ring j p sm
    obtain ⟨-, -, -, -, -, -, -, moved⟩ := (s.ring j).moveWrite_frame p ((s.ring j).writeCase p)
    have admitted := congrArg RingCounters.admitted moved
    have bypassed := congrArg RingCounters.bypassed moved
    rw [ring]
    exact ⟨admitted, bypassed⟩
  · rw [(s.trackWrite_keeps k p sm).ring j e]
    exact ⟨rfl, rfl⟩

theorem State.trackWrite_keepsStore (s : State) (k : Fin 64) (p : Nat) (sm : Option Summary) :
    s.KeepsStore (s.trackWrite k p sm) := by
  have keeps := s.trackWrite_keeps k p sm
  have counters := s.trackWrite_counters k p sm
  exact ⟨⟨keeps.rfe, by rw [keeps.hst], by rw [keeps.dcc], by rw [keeps.dcc], by rw [keeps.dcc], by rw [keeps.dcc]⟩,
    by rw [counters], by rw [counters], fun j => (s.trackWrite_tallies k p sm j).1⟩

/-- The tracking of a read counts no admission. -/
theorem State.trackRead_keepsStore (s : State) (k : Fin 64) (p : Nat) : s.KeepsStore (s.trackRead k p).1 := by
  have keeps := s.trackRead_keeps k p
  obtain ⟨-, counters⟩ := s.trackRead_alerts_counters k p
  refine ⟨⟨keeps.rfe, by rw [keeps.hst], by rw [keeps.dcc], by rw [keeps.dcc], by rw [keeps.dcc], by rw [keeps.dcc]⟩,
    by rw [counters], by rw [counters], fun j => ?_⟩
  by_cases e : j = k
  · subst e
    obtain ⟨-, -, -, -, -, -, -, -, admitted, -⟩ := s.trackRead_frame j p
    exact admitted
  · rw [keeps.ring j e]

/-! ### Control words -/

theorem State.checkFlush_keepsWork (s : State) : s.KeepsWork s.checkFlush := by
  rcases s.checkFlush_cases with ⟨-, -, h⟩ | ⟨-, h⟩ <;> rw [h]
  · exact ⟨rfl, rfl, rfl, rfl, rfl, rfl⟩
  · exact .refl s

/-- No control word touches a request, a slot or a queue. -/
theorem State.writeControl_keepsWork (c : ControlWord) (w : List Byte) (s : State) :
    s.KeepsWork (s.writeControl c w) := by
  cases c with
  | epochSettings | refreshQuiet | alertLine | ring | flagClear | plain => exact ⟨rfl, rfl, rfl, rfl, rfl, rfl⟩
  | storeSettings =>
    unfold State.writeControl State.writeStoreSettings
    dsimp only
    rw [State.raiseStoreMust_eq]
    exact ⟨rfl, rfl, rfl, rfl, rfl, rfl⟩
  | softReset =>
    have flush : s.KeepsWork { s with swu.softReset := true, hst.flush := true } := ⟨rfl, rfl, rfl, rfl, rfl, rfl⟩
    unfold State.writeControl State.writeSoftReset State.startSoftReset
    dsimp only
    split_ifs
    · exact .refl s
    · exact flush.trans (State.checkFlush_keepsWork _)
    · exact .refl s
  | enable k =>
    unfold State.writeControl State.writeEnable State.enableRing State.disableRing
    dsimp only
    split_ifs <;> exact ⟨rfl, rfl, rfl, rfl, rfl, rfl⟩
  | counterClear =>
    unfold State.writeControl State.writeCounterClear
    dsimp only
    split_ifs <;> exact ⟨rfl, rfl, rfl, rfl, rfl, rfl⟩

/-- The words of one write, decoded one after another (R159). -/
def State.writeControls (cs : List (ControlWord × List Byte)) (s : State) : State :=
  cs.foldl (fun t x => t.writeControl x.1 x.2) s

theorem State.writeControls_keepsWork (cs : List (ControlWord × List Byte)) (s : State) :
    s.KeepsWork (s.writeControls cs) := by
  unfold State.writeControls
  induction cs generalizing s with
  | nil => exact .refl s
  | cons x cs ih => exact (s.writeControl_keepsWork x.1 x.2).trans (ih _)

/-! ### Writes to held cells -/

/-- A HELD slot that is written moves to the young end (R103). -/
theorem State.overwrite_of_held (s : State) {x : Slot} (data : List Byte) (held : x.state = .held) :
    s.overwrite x data = State.voidClaims x.num { s with
      hst := (s.hst.remove x.num).join
        { x with data := data, remaining := copiesForHeld data, admitted := s.sje.epoch }
      counters.overwrites := bump s.counters.overwrites 1 } := by
  unfold State.overwrite
  rw [held]

/-- A retiring slot that is written becomes RETIRING_WRITTEN in its place (R104). -/
theorem State.overwrite_of_away (s : State) {x : Slot} (data : List Byte) (away : x.state ≠ .held) :
    s.overwrite x data = State.voidClaims x.num { s with
      hst := s.hst.update x.num
        (fun _ => { x with data := data, remaining := copiesForHeld data, state := .retiringWritten })
      counters.overwrites := bump s.counters.overwrites 1 } := by
  unfold State.overwrite
  cases h : x.state with
  | held => exact absurd h away
  | retiring => rfl
  | retiringWritten => rfl

/-! ### The outcomes of a take -/

/-- A write at the tail of the write queue (R126). -/
def State.withWrite (cell : Nat) (w : WriteData) (s : State) : State :=
  { s with
    dcc.writeQ := s.dcc.writeQ ++ [{ cell := cell, payload := w, seq := s.dcc.nextSeq }]
    dcc.nextSeq := s.dcc.nextSeq + 1 }

/-- A read at the tail of the read queue (R125). -/
def State.withRead (cell : Nat) (x : Extent) (entry : Nat) (boost : Bool) (s : State) : State :=
  { s with
    dcc.readQ := s.dcc.readQ ++ [{ cell := cell, extent := x, entry := entry, boost := boost, seq := s.dcc.nextSeq }]
    dcc.nextSeq := s.dcc.nextSeq + 1 }

theorem State.queueWrite_withWrite {s u : State} {cell : Nat} {w : WriteData} (e : s.queueWrite cell w = some u) :
    u = s.withWrite cell w := (State.queueWrite_eq_some.mp e).2

/-- Whether every slot holds the 256 bytes of a cell (R96). -/
def HoldStore.Whole (h : HoldStore) : Prop := ∀ x ∈ h.slots, x.data.length = 256

/-- What the take of a request makes of the store and of the data under way, from the state after its head has left the
queue. The state `t` is the one that tracking and counting leave. -/
inductive State.Taken (r : Request) (s : State) : State → Prop
  | discarded {t : State} (keeps : s.KeepsStore t) : s.Taken r t
  | queued {t : State} {cell : Nat} {w : WriteData} (keeps : s.KeepsStore t) (size : r.InRange → w.InRange) :
    s.Taken r (t.withWrite cell w)
  | decoded {cell : Nat} {w : WriteData} (size : r.InRange → w.InRange) :
    s.Taken r ((s.withWrite cell w).writeControls (s.controlWords r))
  | overwritten {t : State} {x : Slot} {data : List Byte} (keeps : s.KeepsStore t) (held : x ∈ t.hst.slots)
    (size : r.InRange → data.length = 256) : s.Taken r (t.overwrite x data)
  | admitted {t : State} {k : Fin 64} {n cell : Nat} {data : List Byte} (keeps : s.KeepsStore t)
    (unheld : ∀ x ∈ t.hst.slots, x.cell ≠ cell) (number : n < 2048) (free : ∀ x ∈ t.hst.slots, x.num ≠ n)
    (size : r.InRange → data.length = 256) : s.Taken r (t.admitCell k n cell data)
  | merged {x : Slot} {w : Nat} {word : List Byte} (size : r.InRange → w < 32 ∧ word.length = 8) :
    s.Taken r (s.mergeHeld x w word)
  | answered {t : State} {e : Response} (keeps : s.KeepsStore t) (free : ∀ x ∈ t.rfe.responses, x.id ≠ e.id)
    (ready : e.state = .ready) (claim : ∀ n, e.claim = some n → ∃ x ∈ t.hst.slots, x.num = n)
    (extent : r.InRange → e.extent.InRange)
    (size : r.InRange → t.hst.Whole → e.data.length = e.extent.size) : s.Taken r (t.addResponse e)
  | awaited {t : State} {cell : Nat} {e : Response} {boost : Bool} (keeps : s.KeepsStore t)
    (free : ∀ x ∈ t.rfe.responses, x.id ≠ e.id) (waiting : e.state = .waiting) (claim : e.claim = none)
    (extent : r.InRange → e.extent.InRange) :
    s.Taken r ((t.addResponse e).withRead cell e.extent e.id boost)

/-- The bytes of a rewritten header are as many as before (R89). -/
theorem rewritten_length (h : Option HeaderPlace) (data : List Byte) : (rewritten h data).length = data.length := by
  cases h with
  | none => rfl
  | some h =>
    unfold rewritten rewriteHeader
    dsimp only
    cases h.kind with
    | ipv4 => exact rewriteIpv4_length
    | ipv6 => exact List.length_set
    | other => rfl

theorem wordOf_length {cell : List Byte} {w : Nat} (hc : cell.length = 256) (hw : w < 32) : (wordOf cell w).length = 8 := by
  simp only [wordOf, List.length_take, List.length_drop, hc]
  omega

/-- A merged word leaves a cell its length (R105). -/
theorem mergeWord_length {cell word : List Byte} {w : Nat} (hc : cell.length = 256) (hw : w < 32)
    (hl : word.length = 8) : (mergeWord cell w word).length = 256 := by
  simp only [mergeWord, List.length_append, List.length_take, List.length_drop, hc, hl]
  omega

theorem slotBytes_length {slot : Slot} {x : Extent} (hs : slot.data.length = 256) (hx : x.InRange) :
    (slotBytes slot x).length = x.size := by
  cases x with
  | cell => exact hs
  | word w => exact wordOf_length hs hx

theorem State.reportData_length (s : State) (n : Nat) {x : Extent} (hx : x.InRange) :
    (s.reportData n x).length = x.size := by
  cases x with
  | cell => exact s.reportCell_length n
  | word w => exact wordOf_length (s.reportCell_length n) hx

section
variable {s u : State} {r : Request} {cell id : Nat} {tag : Tag} {x : Extent}

theorem State.rangeError_keepsStore (s : State) : s.KeepsStore s.rangeError := .of_eq rfl

/-- A read that waits for DRAM. -/
theorem State.takeDramRead_taken {t : State} {h : HeaderRead} {boost : Bool} (keeps : s.KeepsStore t)
    (free : ∀ y ∈ t.rfe.responses, y.id ≠ id) (extent : r.InRange → x.InRange)
    (e : t.takeDramRead cell id tag x h boost = some u) : s.Taken r u := by
  obtain ⟨-, rfl⟩ := State.queueRead_eq_some.mp e
  exact .awaited (e := waitingResponse id tag x h) keeps free rfl rfl extent

/-- A read of a buffer cell: a hit answers with the slot's bytes, and a miss waits for DRAM (R106, R107). -/
theorem State.takeBufferRead_taken {t : State} {h : HeaderRead} {boost : Bool} (keeps : s.KeepsStore t)
    (free : ∀ y ∈ t.rfe.responses, y.id ≠ id) (extent : r.InRange → x.InRange)
    (e : t.takeBufferRead cell id tag x h boost = some u) : s.Taken r u := by
  rcases State.takeBufferRead_cases e with ⟨slot, held, rfl⟩ | ⟨-, -, e⟩
  · have mem := (HoldStore.lookup?_some held).1
    have hit : t.KeepsStore { t with counters.hits := bump t.counters.hits 1 } := .of_eq rfl
    refine .answered (keeps.trans hit) free rfl (fun n claim => ?_) extent (fun range whole => ?_)
    · cases x with
      | cell => cases claim; exact ⟨slot, mem, rfl⟩
      | word w => cases claim
    · exact (rewritten_length _ _).trans (slotBytes_length (whole slot mem) (extent range))
  · have miss : t.KeepsStore { t with counters.misses := bump t.counters.misses 1 } := .of_eq rfl
    exact State.takeDramRead_taken (keeps.trans miss) free extent e

theorem State.takeBufferCellRead_taken (free : ∀ y ∈ s.rfe.responses, y.id ≠ id)
    (e : s.takeBufferCellRead cell id tag = some u) : s.Taken r u := by
  have extent : r.InRange → Extent.cell.InRange := fun _ => trivial
  unfold State.takeBufferCellRead at e
  split at e
  · rename_i k p _
    have tracked := s.trackRead_keepsStore k p
    exact State.takeBufferRead_taken tracked (by rw [tracked.work.rfe]; exact free) extent e
  · exact State.takeBufferRead_taken (.refl s) free extent e
  · exact State.takeBufferRead_taken (.refl s) free extent e

/-- An answer that is READY at the take with as many bytes as its extent has, and without a claim. -/
theorem State.Taken.answer {t : State} {status : Status} {data : List Byte} (keeps : s.KeepsStore t)
    (free : ∀ y ∈ s.rfe.responses, y.id ≠ id) (extent : r.InRange → x.InRange)
    (size : r.InRange → data.length = x.size) : s.Taken r (t.addResponse (readyResponse id tag x status data)) :=
  .answered (e := readyResponse id tag x status data) keeps (by rw [keeps.work.rfe]; exact free) rfl nofun extent
    (fun range _ => size range)

/-- A read whose tag is outstanding (R146). -/
theorem State.takeTagReused_taken (free : ∀ y ∈ s.rfe.responses, y.id ≠ id) (extent : r.InRange → x.InRange) :
    s.Taken r (s.takeTagReused id tag x) :=
  .answer (.of_eq rfl) free extent fun _ => zeros_length _

theorem State.takeRangeRead_taken (free : ∀ y ∈ s.rfe.responses, y.id ≠ id) (extent : r.InRange → x.InRange) :
    s.Taken r (s.takeRangeRead id tag x) :=
  .answer s.rangeError_keepsStore free extent fun _ => zeros_length _

theorem State.takeReportRead_taken {n : Nat} (free : ∀ y ∈ s.rfe.responses, y.id ≠ id)
    (extent : r.InRange → x.InRange) : s.Taken r (s.takeReportRead n id tag x) :=
  .answer (.refl s) free extent fun range => State.reportData_length _ n (extent range)

theorem State.takeCellRead_taken (e : s.takeCellRead cell tag = some u) : s.Taken (.cellRead cell tag) u := by
  have extent : (Request.cellRead cell tag).InRange → Extent.cell.InRange := fun _ => trivial
  unfold State.takeCellRead at e
  split at e
  · cases e
  rename_i id hid
  have free := (FrontEnd.freeEntry?_spec hid).2
  split at e
  · cases e; exact State.takeTagReused_taken free extent
  split at e
  · cases e; exact State.takeRangeRead_taken free extent
  · cases e; exact State.takeReportRead_taken free extent
  · exact State.takeDramRead_taken (.refl s) free extent e
  · exact State.takeBufferCellRead_taken free e

theorem State.takeWordRead_taken {w : Nat} (e : s.takeWordRead cell w tag = some u) :
    s.Taken (.wordRead cell w tag) u := by
  have extent : (Request.wordRead cell w tag).InRange → (Extent.word w).InRange := fun range => range.2
  unfold State.takeWordRead at e
  split at e
  · cases e
  rename_i id hid
  have free := (FrontEnd.freeEntry?_spec hid).2
  split at e
  · cases e; exact State.takeTagReused_taken free extent
  split at e
  · cases e; exact State.takeRangeRead_taken free extent
  · cases e; exact State.takeReportRead_taken free extent
  · exact State.takeDramRead_taken (.refl s) free extent e
  · exact State.takeBufferRead_taken (.refl s) free extent e

/-! Writes. -/

theorem State.takePlainWrite_taken {data : List Byte} (e : s.takePlainWrite cell data = some u) :
    s.Taken (.cellWrite cell data) u := by
  unfold State.takePlainWrite at e
  split at e
  · rename_i slot held
    cases e
    exact .overwritten (.refl s) (HoldStore.lookup?_some held).1 (fun range => range.2)
  · rw [State.queueWrite_withWrite e]
    exact .queued (.refl s) (fun range => range.2)

theorem State.takePositionWrite_taken {k : Fin 64} {p : Nat} {data : List Byte}
    (e : s.takePositionWrite k p cell data = some u) : s.Taken (.cellWrite cell data) u := by
  have tracked := s.trackWrite_keepsStore k p (summaryOf data)
  have size : (Request.cellWrite cell data).InRange → data.length = 256 := fun range => range.2
  rcases State.takePositionWrite_cases e with ⟨slot, held, rfl⟩ | ⟨unheld, -, n, free, rfl⟩ | ⟨-, -, -, rfl⟩
  · exact .overwritten tracked (by rw [tracked.work.slots]; exact (HoldStore.lookup?_some held).1) size
  · obtain ⟨number, free⟩ := HoldStore.freeSlot?_spec free
    exact .admitted tracked (by rw [tracked.work.slots]; exact HoldStore.lookup?_none.mp unheld) number
      (by rw [tracked.work.slots]; exact free) size
  · let t := s.trackWrite k p (summaryOf data)
    let ring := { t.ring k with counters.bypassed := bump (t.ring k).counters.bypassed 1 }
    have counted : t.KeepsStore (t.setRing k ring) := ⟨⟨rfl, rfl, rfl, rfl, rfl, rfl⟩, .of_setRing rfl⟩
    exact .queued (w := .full data) (tracked.trans counted) size

theorem State.takeCellWrite_taken {data : List Byte} (e : s.takeCellWrite cell data = some u) :
    s.Taken (.cellWrite cell data) u := by
  unfold State.takeCellWrite at e
  split at e
  · cases e; exact .discarded s.rangeError_keepsStore
  · cases e; exact .discarded (.refl s)
  · rename_i n control
    obtain ⟨v, hv, rfl⟩ := Option.map_eq_some_iff.mp e
    have words : s.controlWords (.cellWrite cell data) =
        (List.range 32).map (fun w => (controlWord n w, wordOf data w)) := by simp only [State.controlWords, control]
    have decoded := State.Taken.decoded (s := s) (r := .cellWrite cell data) (cell := cell) (w := .full data)
      (fun range => range.2)
    rw [words, State.writeControls, List.foldl_map] at decoded
    rw [State.queueWrite_withWrite hv]
    exact decoded
  · split at e
    · exact State.takePositionWrite_taken e
    · exact State.takePlainWrite_taken e
    · exact State.takePlainWrite_taken e

theorem State.takeWordWrite_taken {w : Nat} {data : List Byte} (e : s.takeWordWrite cell w data = some u) :
    s.Taken (.wordWrite cell w data) u := by
  have size : (Request.wordWrite cell w data).InRange → w < 32 ∧ data.length = 8 := fun range => range.2
  unfold State.takeWordWrite at e
  split at e
  · cases e; exact .discarded s.rangeError_keepsStore
  · cases e; exact .discarded (.refl s)
  · rename_i n control
    obtain ⟨v, hv, rfl⟩ := Option.map_eq_some_iff.mp e
    have words : s.controlWords (.wordWrite cell w data) = [(controlWord n w, data)] := by
      simp only [State.controlWords, control]
    have decoded := State.Taken.decoded (s := s) (r := .wordWrite cell w data) (cell := cell)
      (w := .partialWord w data) size
    rw [words] at decoded
    rw [State.queueWrite_withWrite hv]
    exact decoded
  · split at e
    · cases e; exact .merged size
    · rw [State.queueWrite_withWrite e]
      exact .queued (.refl s) size

/-- What the take of each kind of request makes of the store and of the data under way. -/
theorem State.takeRequest_taken (e : s.takeRequest r = some u) : s.Taken r u := by
  cases r with
  | cellWrite cell data => exact State.takeCellWrite_taken e
  | wordWrite cell w data => exact State.takeWordWrite_taken e
  | cellRead cell tag => exact State.takeCellRead_taken e
  | wordRead cell w tag => exact State.takeWordRead_taken e

end

/-! ### The choices that follow an event -/

section
variable (s : State)

theorem State.startTraining_keepsStore : s.KeepsStore s.startTraining := by
  rcases s.startTraining_cases with h | ⟨-, -, -, h⟩ <;> rw [h]
  · exact .refl s
  · exact .of_eq rfl

/-- A change of the channel's state, rows and timers alone. -/
theorem State.KeepsStore.of_channel {s t : State} (e : t = { s with dcc := t.dcc }) (readQ : t.dcc.readQ = s.dcc.readQ)
    (writeQ : t.dcc.writeQ = s.dcc.writeQ) (inHand : t.dcc.inHand = s.dcc.inHand)
    (inFlight : t.dcc.inFlight = s.dcc.inFlight) : s.KeepsStore t :=
  ⟨⟨by rw [e], by rw [e], readQ, writeQ, inHand, inFlight⟩, .of_rings (by rw [e]) (by rw [e]) (by rw [e])⟩

theorem State.wake_keepsStore : s.KeepsStore s.wake := by
  rcases s.wake_cases with h | ⟨-, h⟩ <;> rw [h]
  · exact .refl s
  · exact .of_channel rfl rfl rfl rfl rfl

theorem State.enterQuiet_keepsStore : s.KeepsStore s.enterQuiet := by
  rcases s.enterQuiet_cases with h | ⟨-, -, h⟩ <;> rw [h]
  · exact .refl s
  · exact .of_channel rfl rfl rfl rfl rfl

end

/-- An operation begins: it comes from its queue, or is the retirement in hand (R124, R130). -/
structure Channel.Begins (c d : Channel) : Prop where
  readQ : d.readQ.Sublist c.readQ
  writeQ : d.writeQ.Sublist c.writeQ
  inHand : d.inHand = c.inHand
  read : ∀ f ∈ d.inFlight, ∀ e dropped, f.op = .read e dropped → e ∈ c.readQ
  retirement : ∀ f ∈ d.inFlight, ∀ r, f.op = .retirement r → c.inHand = some r

section
variable (c : Channel)

theorem Channel.beginRefresh_begins : c.Begins c.beginRefresh :=
  ⟨List.Sublist.refl _, List.Sublist.refl _, rfl, by rintro f ⟨⟩; exact nofun, by rintro f ⟨⟩; exact nofun⟩

theorem Channel.beginRead_begins {e : ReadEntry} (h : e ∈ c.readQ) : c.Begins (c.beginRead e) := by
  have keeps := c.beginRead_keeps e
  refine ⟨keeps.readQ, keeps.writeQ, keeps.inHand, ?_, by rintro f ⟨⟩; exact nofun⟩
  rintro f ⟨⟩ x dropped ⟨⟩
  exact h

theorem Channel.beginWrite_begins (w : WriteEntry) : c.Begins (c.beginWrite w) := by
  have keeps := c.beginWrite_keeps w
  exact ⟨keeps.readQ, keeps.writeQ, keeps.inHand, by rintro f ⟨⟩; exact nofun, by rintro f ⟨⟩; exact nofun⟩

/-- The operation performed for the retirement in hand (R130). -/
theorem Channel.beginRetirement_begins {r : Retirement} (h : c.inHand = some r) : c.Begins (c.beginRetirement r) := by
  rcases c.beginRetirement_cases r with ⟨e, he, -, -, b⟩ | ⟨w, -, -, -, b⟩ | ⟨-, -, b⟩ <;> rw [b]
  · exact c.beginRead_begins he
  · exact c.beginWrite_begins w
  · refine ⟨List.Sublist.refl _, List.Sublist.refl _, rfl, by rintro f ⟨⟩; exact nofun, ?_⟩
    rintro f ⟨⟩ x ⟨⟩
    exact h

end

/-- The slot of a retirement's choice becomes RETIRING in its place, and its data are copied (R112, R130). -/
def State.choosing (x : Slot) (r : Retirement) (s : State) : State :=
  { s with hst := s.hst.update x.num (fun x => { x with state := .retiring }), dcc.inHand := some r }

/-- The arbiter: nothing, an operation that begins, or the choice of a retirement with its operation (R124, R130). -/
theorem State.arbitrate_begins (s : State) :
    s.arbitrate = s ∨
    (∃ d, s.dcc.Begins d ∧ s.arbitrate = { s with dcc := d }) ∨
    ∃ x ∈ s.hst.slots, ∃ r d, s.dcc.inHand = none ∧ x.state = .held ∧ r.slot = x.num ∧ r.cell = x.cell ∧
      r.data = x.data ∧ (s.choosing x r).dcc.Begins d ∧ s.arbitrate = { s.choosing x r with dcc := d } := by
  rcases s.arbitrate_cases with h | ⟨-, -, ⟨-, h⟩ | ⟨u, -, -, h⟩ | ⟨e, chosen, h⟩ | ⟨w, ws, -, -, h⟩⟩
  · exact .inl h
  · exact .inr (.inl ⟨_, s.dcc.beginRefresh_begins, h⟩)
  · rcases s.retire_cases u with ⟨r, hand, e⟩ | ⟨x, r, hand, -, mem, held, hr, e⟩ | ⟨-, -, e⟩
    · exact .inr (.inl ⟨_, s.dcc.beginRetirement_begins hand, h.trans e⟩)
    · refine .inr (.inr ⟨x, mem, r, _, hand, held, by rw [hr], by rw [hr], by rw [hr], ?_, h.trans e⟩)
      exact Channel.beginRetirement_begins _ rfl
    · exact .inl (h.trans e)
  · exact .inr (.inl ⟨_, s.dcc.beginRead_begins (Channel.chosenRead?_mem chosen).1, h⟩)
  · exact .inr (.inl ⟨_, s.dcc.beginWrite_begins w, h⟩)

end Sys2Proof.Machine
end

section
/-! PROOFS. Every step keeps directory, slots, retirement and claims consistent: each outcome of a take, each event and
each choice that follows keeps every part of the invariant. In the proofs `{ h with … }` lists the parts that an operation
touches. Settles O49. -/

namespace Sys2Proof.Machine

/-! ### The invariant, part by part -/

/-- The parts of the store's invariant (R96, R97, R109, R112, R130, R131). -/
structure State.Consistent (s : State) : Prop where
  cells : (s.hst.slots.map (fun x => x.cell)).Nodup
  nums : (s.hst.slots.map (fun x => x.num)).Nodup
  ranges : ∀ x ∈ s.hst.slots, x.num < 2048 ∧ x.remaining ≤ 15
  away : ∀ x ∈ s.hst.slots, x.state ≠ .held → (s.dcc.inHand.map (fun r => r.slot)) = some x.num
  inHand : ∀ r ∈ s.dcc.inHand, ∃ x ∈ s.hst.slots, x.num = r.slot ∧ x.cell = r.cell ∧ x.state ≠ .held
  inFlight : ∀ f ∈ s.dcc.inFlight, ∀ r, f.op = .retirement r → s.dcc.inHand = some r
  claims : s.ClaimsOk

/-- The parts are those of the statement. -/
theorem State.consistent_iff {s : State} : s.Consistent ↔ s.StoreOk := by
  constructor
  · rintro ⟨cells, nums, ranges, away, inHand, inFlight, claims⟩
    exact ⟨⟨cells, nums, ranges⟩, ⟨away, inHand, inFlight⟩, claims⟩
  · rintro ⟨⟨cells, nums, ranges⟩, ⟨away, inHand, inFlight⟩, claims⟩
    exact ⟨cells, nums, ranges, away, inHand, inFlight, claims⟩

theorem State.reset_consistent : State.reset.Consistent :=
  ⟨List.nodup_nil, List.nodup_nil, nofun, nofun, nofun, nofun, nofun⟩

section
variable {s t : State}

theorem State.Consistent.of_keeps (h : s.Consistent) (keeps : s.KeepsWork t) : t.Consistent where
  cells := by rw [keeps.slots]; exact h.cells
  nums := by rw [keeps.slots]; exact h.nums
  ranges := by rw [keeps.slots]; exact h.ranges
  away := by rw [keeps.slots, keeps.inHand]; exact h.away
  inHand := by rw [keeps.slots, keeps.inHand]; exact h.inHand
  inFlight := by rw [keeps.inFlight, keeps.inHand]; exact h.inFlight
  claims := by unfold State.ClaimsOk; rw [keeps.slots, keeps.rfe]; exact h.claims

theorem State.Consistent.checkFlush (h : s.Consistent) : s.checkFlush.Consistent := h.of_keeps s.checkFlush_keepsWork

/-- Two slots with one number are one slot (R96). -/
theorem State.Consistent.eq_of_num (h : s.Consistent) {x y : Slot} (hx : x ∈ s.hst.slots) (hy : y ∈ s.hst.slots)
    (e : x.num = y.num) : x = y := List.inj_on_of_nodup_map h.nums hx hy e

/-! ### Slots -/

/-- A slot that keeps its number and its cell and leaves or enters HELD for nothing else, with its reads in range. -/
structure Slot.StaysPut (x y : Slot) : Prop where
  num : y.num = x.num
  cell : y.cell = x.cell
  remaining : y.remaining ≤ 15
  held : y.state = .held ↔ x.state = .held

/-- Slots changed in their places keep the store consistent where each stays put. -/
theorem State.Consistent.mapSlots (h : s.Consistent) {f : Slot → Slot} (put : ∀ x ∈ s.hst.slots, x.StaysPut (f x)) :
    State.Consistent { s with hst.slots := s.hst.slots.map f } := by
  have same {α : Type} (g : Slot → α) (hg : ∀ x ∈ s.hst.slots, g (f x) = g x) :
      (s.hst.slots.map f).map g = s.hst.slots.map g := by
    rw [List.map_map]
    exact List.map_congr_left hg
  refine ⟨?_, ?_, fun y hy => ?_, fun y hy notHeld => ?_, fun r hr => ?_, h.inFlight, fun r hr m hm => ?_⟩
  · rw [same _ fun x hx => (put x hx).cell]; exact h.cells
  · rw [same _ fun x hx => (put x hx).num]; exact h.nums
  · obtain ⟨x, hx, rfl⟩ := List.mem_map.mp hy
    exact ⟨(put x hx).num.trans_lt (h.ranges x hx).1, (put x hx).remaining⟩
  · obtain ⟨x, hx, rfl⟩ := List.mem_map.mp hy
    rw [(put x hx).num]
    exact h.away x hx (mt (put x hx).held.mpr notHeld)
  · obtain ⟨x, hx, slot, cell, notHeld⟩ := h.inHand r hr
    exact ⟨f x, List.mem_map_of_mem hx, (put x hx).num.trans slot, (put x hx).cell.trans cell,
      mt (put x hx).held.mp notHeld⟩
  · obtain ⟨x, hx, e⟩ := h.claims r hr m hm
    exact ⟨f x, List.mem_map_of_mem hx, (put x hx).num.trans e⟩

/-- One slot changed in its place. -/
theorem State.Consistent.update (h : s.Consistent) {n : Nat} {f : Slot → Slot}
    (put : ∀ x ∈ s.hst.slots, x.num = n → x.StaysPut (f x)) : State.Consistent { s with hst := s.hst.update n f } := by
  refine h.mapSlots fun x hx => ?_
  split
  · exact put x hx ‹_›
  · exact ⟨rfl, rfl, (h.ranges x hx).2, Iff.rfl⟩

/-- The slots but one. -/
theorem mem_remove {hst : HoldStore} {n : Nat} {y : Slot} : y ∈ (hst.remove n).slots ↔ y ∈ hst.slots ∧ y.num ≠ n := by
  rw [HoldStore.remove_slots, List.mem_filter, bne_iff_ne]

/-- A channel whose retirement in hand is the one before and not of slot `n`, where every other slot away from HELD has
it. -/
structure State.HandWithout (s : State) (n : Nat) (d : Channel) : Prop where
  away : ∀ x ∈ s.hst.slots, x.num ≠ n → x.state ≠ .held → (d.inHand.map (fun r => r.slot)) = some x.num
  inHand : ∀ r ∈ d.inHand, r.slot ≠ n ∧ s.dcc.inHand = some r
  inFlight : ∀ f ∈ d.inFlight, ∀ r, f.op = .retirement r → d.inHand = some r

/-- A HELD slot is not the one of the retirement in hand (R112). -/
theorem State.Consistent.handWithout_held (h : s.Consistent) {x : Slot} (hx : x ∈ s.hst.slots)
    (held : x.state = .held) : s.HandWithout x.num s.dcc := by
  refine ⟨fun y hy _ => h.away y hy, fun r hr => ⟨fun e => ?_, hr⟩, h.inFlight⟩
  obtain ⟨y, hy, slot, -, notHeld⟩ := h.inHand r hr
  rw [h.eq_of_num hy hx (slot.trans e)] at notHeld
  exact notHeld held

/-- Once the retirement in hand is done, no slot but its own is away from HELD (R112, R131). -/
theorem State.Consistent.handWithout_done (h : s.Consistent) {r : Retirement} {d : Channel}
    (hand : s.dcc.inHand = some r) (inHand : d.inHand = none) (inFlight : d.inFlight = none) :
    s.HandWithout r.slot d := by
  refine ⟨fun x hx other away => ?_, by rw [inHand]; nofun, by rw [inFlight]; nofun⟩
  have slot := h.away x hx away
  rw [hand] at slot
  exact absurd (Option.some.inj slot).symm other

/-- A slot that is taken out leaves a consistent store where its claims go with it and no retirement of it is in hand
(R97, R109). -/
theorem State.Consistent.freeSlot (h : s.Consistent) {n : Nat} {d : Channel} (hand : s.HandWithout n d) :
    (State.freeSlot n { s with dcc := d }).Consistent where
  cells := h.cells.sublist (List.filter_sublist.map _)
  nums := h.nums.sublist (List.filter_sublist.map _)
  ranges y hy := h.ranges y (mem_remove.mp hy).1
  away y hy := hand.away y (mem_remove.mp hy).1 (mem_remove.mp hy).2
  inHand r hr := by
    obtain ⟨other, before⟩ := hand.inHand r hr
    obtain ⟨x, hx, slot, rest⟩ := h.inHand r before
    exact ⟨x, mem_remove.mpr ⟨hx, fun e => other (slot.symm.trans e)⟩, slot, rest⟩
  inFlight := hand.inFlight
  claims r hr m hm := by
    obtain ⟨q, hq, rfl⟩ := List.mem_map.mp hr
    split at hm
    · cases hm
    · rename_i other
      obtain ⟨x, hx, e⟩ := h.claims q hq m hm
      exact ⟨x, mem_remove.mpr ⟨hx, fun en => other (by rw [hm, ← e, en])⟩, e⟩

/-- A slot moves to the young end as HELD: it keeps its number, its cell and the claims on it (R98). -/
theorem State.Consistent.rejoin (h : s.Consistent) {x y : Slot} (hx : x ∈ s.hst.slots) (num : y.num = x.num)
    (cell : y.cell = x.cell) (remaining : y.remaining ≤ 15) (state : y.state = .held) {d : Channel}
    (hand : s.HandWithout x.num d) :
    State.Consistent { s with hst := (s.hst.remove x.num).join y, dcc := d } := by
  have mem {z : Slot} : z ∈ ((s.hst.remove x.num).join y).slots ↔ (z ∈ s.hst.slots ∧ z.num ≠ x.num) ∨ z = y := by
    rw [HoldStore.join_slots, List.mem_append, mem_remove, List.mem_singleton]
  have fresh {α : Type} (g : Slot → α) (hg : g y = g x) (nodup : (s.hst.slots.map g).Nodup) :
      (((s.hst.remove x.num).join y).slots.map g).Nodup := by
    rw [HoldStore.join_slots, List.map_append]
    refine List.Nodup.append (nodup.sublist (List.filter_sublist.map _)) (List.nodup_singleton _) ?_
    intro a ha hb
    obtain ⟨z, hz, rfl⟩ := List.mem_map.mp ha
    obtain ⟨hz, other⟩ := mem_remove.mp hz
    have e : g z = g y := List.mem_singleton.mp hb
    exact other (congrArg Slot.num (List.inj_on_of_nodup_map nodup hz hx (e.trans hg)))
  have stays {n : Nat} (hn : ∃ z ∈ s.hst.slots, z.num = n) : ∃ z ∈ ((s.hst.remove x.num).join y).slots, z.num = n := by
    obtain ⟨z, hz, e⟩ := hn
    by_cases ex : z.num = x.num
    · exact ⟨y, mem.mpr (.inr rfl), num.trans (ex.symm.trans e)⟩
    · exact ⟨z, mem.mpr (.inl ⟨hz, ex⟩), e⟩
  refine ⟨fresh _ cell h.cells, fresh _ num h.nums, fun z hz => ?_, fun z hz notHeld => ?_, fun r hr => ?_,
    hand.inFlight, fun r hr n hn => stays (h.claims r hr n hn)⟩
  · rcases mem.mp hz with ⟨hz, -⟩ | rfl
    · exact h.ranges z hz
    · exact ⟨num ▸ (h.ranges x hx).1, remaining⟩
  · rcases mem.mp hz with ⟨hz, other⟩ | rfl
    · exact hand.away z hz other notHeld
    · exact absurd state notHeld
  · obtain ⟨other, before⟩ := hand.inHand r hr
    obtain ⟨z, hz, slot, rest⟩ := h.inHand r before
    exact ⟨z, mem.mpr (.inl ⟨hz, fun e => other (slot.symm.trans e)⟩), slot, rest⟩

/-- Claims that go leave a consistent store. -/
theorem State.Consistent.of_claims (h : s.Consistent) {responses : List Response}
    (claims : ∀ r ∈ responses, ∀ n, r.claim = some n → ∃ q ∈ s.rfe.responses, q.claim = some n) :
    State.Consistent { s with rfe.responses := responses } := by
  refine { h with claims := fun r hr n hn => ?_ }
  obtain ⟨q, hq, e⟩ := claims r hr n hn
  exact h.claims q hq n e

theorem State.Consistent.voidClaims (h : s.Consistent) (n : Nat) : (s.voidClaims n).Consistent := by
  refine h.of_claims fun r hr m hm => ?_
  obtain ⟨q, hq, rfl⟩ := List.mem_map.mp hr
  split at hm
  · cases hm
  · exact ⟨q, hq, hm⟩

/-! ### The outcomes of a take -/

theorem copiesForHeld_le (data : List Byte) : copiesForHeld data ≤ 15 := by
  have : prefixCopies data < 16 := Nat.mod_lt _ (by decide)
  unfold copiesForHeld
  split <;> omega

/-- An overwritten slot keeps its number, its cell and, unless it is HELD, its place (R103, R104). -/
theorem State.Consistent.overwrite (h : s.Consistent) {x : Slot} (hx : x ∈ s.hst.slots) (data : List Byte) :
    (s.overwrite x data).Consistent := by
  by_cases held : x.state = .held
  · rw [s.overwrite_of_held data held]
    have moved := h.rejoin (y := { x with data := data, remaining := copiesForHeld data, admitted := s.sje.epoch }) hx
      rfl rfl (copiesForHeld_le data) held (h.handWithout_held hx held)
    exact { moved.voidClaims x.num with }
  · rw [s.overwrite_of_away data held]
    have self {y : Slot} (hy : y ∈ s.hst.slots) (e : y.num = x.num) : y = x := h.eq_of_num hy hx e
    have written := h.update (n := x.num)
      (f := fun _ => { x with data := data, remaining := copiesForHeld data, state := .retiringWritten })
      (fun y hy e => ⟨e.symm, by rw [self hy e], copiesForHeld_le data, by rw [self hy e]; exact ⟨nofun, (absurd · held)⟩⟩)
    exact { written.voidClaims x.num with }

/-- An admitted cell takes a number and a cell that no slot has (R101). -/
theorem State.Consistent.admitCell (h : s.Consistent) {k : Fin 64} {n cell : Nat} (data : List Byte)
    (unheld : ∀ x ∈ s.hst.slots, x.cell ≠ cell) (number : n < 2048) (free : ∀ x ∈ s.hst.slots, x.num ≠ n) :
    (s.admitCell k n cell data).Consistent := by
  have copies : prefixCopies data < 16 := Nat.mod_lt _ (by decide)
  have fresh {α : Type} {g : Slot → α} {x : Slot} (nodup : (s.hst.slots.map g).Nodup)
      (new : ∀ y ∈ s.hst.slots, g y ≠ g x) : ((s.hst.slots ++ [x]).map g).Nodup := by
    rw [List.map_append]
    refine List.Nodup.append nodup (List.nodup_singleton _) fun a ha hb => ?_
    obtain ⟨y, hy, rfl⟩ := List.mem_map.mp ha
    exact new y hy (List.mem_singleton.mp hb)
  have still {p : Slot → Prop} {l : List Slot} (hp : ∃ y ∈ s.hst.slots, p y) : ∃ y ∈ s.hst.slots ++ l, p y := by
    obtain ⟨y, hy, e⟩ := hp
    exact ⟨y, List.mem_append_left _ hy, e⟩
  rw [State.admitCell_eq]
  refine { h with
    cells := fresh h.cells unheld, nums := fresh h.nums free, ranges := fun y hy => ?_, away := fun y hy notHeld => ?_
    inHand := fun r hr => still (h.inHand r hr), claims := fun r hr m hm => still (h.claims r hr m hm) }
  · rcases List.mem_append.mp hy with hy | hy
    · exact h.ranges y hy
    · rw [List.mem_singleton.mp hy]; exact ⟨number, Nat.le_of_lt_succ copies⟩
  · rcases List.mem_append.mp hy with hy | hy
    · exact h.away y hy notHeld
    · exact absurd (by rw [List.mem_singleton.mp hy]) notHeld

theorem State.Consistent.mergeHeld (h : s.Consistent) (x : Slot) (w : Nat) (word : List Byte) :
    (s.mergeHeld x w word).Consistent := by
  refine h.update fun y hy _ => ⟨rfl, rfl, (h.ranges y hy).2, ?_⟩
  cases y.state <;> simp [SlotState.afterWrite]

/-- A response entry with a claim, if any, on a slot of the store. -/
theorem State.Consistent.addResponse (h : s.Consistent) {e : Response}
    (claim : ∀ n, e.claim = some n → ∃ x ∈ s.hst.slots, x.num = n) : (s.addResponse e).Consistent := by
  refine { h with claims := fun r hr => ?_ }
  rcases List.mem_append.mp hr with hr | hr
  · exact h.claims r hr
  · rw [List.mem_singleton.mp hr]; exact claim

theorem State.Consistent.withWrite (h : s.Consistent) (cell : Nat) (w : WriteData) : (s.withWrite cell w).Consistent :=
  { h with }

theorem State.Taken.consistent {r : Request} (taken : s.Taken r t) (h : s.Consistent) : t.Consistent := by
  cases taken with
  | discarded keeps => exact h.of_keeps keeps.work
  | queued keeps => exact (h.of_keeps keeps.work).withWrite _ _
  | decoded => exact (h.withWrite _ _).of_keeps (State.writeControls_keepsWork _ _)
  | overwritten keeps held => exact (h.of_keeps keeps.work).overwrite held _
  | admitted keeps unheld number free => exact (h.of_keeps keeps.work).admitCell _ unheld number free
  | merged => exact h.mergeHeld _ _ _
  | answered keeps _ _ claim => exact (h.of_keeps keeps.work).addResponse claim
  | awaited keeps _ _ claim =>
    exact { (h.of_keeps keeps.work).addResponse (fun n hn => absurd (claim.symm.trans hn) nofun) with }

/-! ### The choices that follow an event -/

/-- An operation that begins is at most the retirement in hand (R130, R131). -/
theorem State.Consistent.begins (h : s.Consistent) {d : Channel} (begins : s.dcc.Begins d) :
    State.Consistent { s with dcc := d } :=
  { h with
    away := by rw [begins.inHand]; exact h.away
    inHand := by rw [begins.inHand]; exact h.inHand
    inFlight := by rw [begins.inHand]; exact begins.retirement }

/-- With no retirement in hand every slot is HELD, and the chosen one alone leaves HELD (R112). -/
theorem State.Consistent.arbitrate (h : s.Consistent) : s.arbitrate.Consistent := by
  rcases s.arbitrate_begins with e | ⟨d, begins, e⟩ | ⟨x, hx, r, d, none, -, slot, cell, -, begins, e⟩ <;> rw [e]
  · exact h
  · exact h.begins begins
  have same {α : Type} (g : Slot → α) (hg : ∀ y : Slot, g { y with state := .retiring } = g y) :
      (s.choosing x r).hst.slots.map g = s.hst.slots.map g := by
    refine List.map_map.trans (List.map_congr_left fun y _ => ?_)
    rw [Function.comp_apply]
    split
    · exact hg y
    · rfl
  have allHeld : ∀ y ∈ s.hst.slots, y.state = .held := fun y hy => by
    by_contra notHeld
    have := h.away y hy notHeld
    rw [none] at this
    cases this
  have place {y : Slot} (hy : y ∈ (s.choosing x r).hst.slots) :
      ∃ z ∈ s.hst.slots, y.num = z.num ∧ y.remaining = z.remaining ∧ (y.state ≠ .held → z.num = x.num) := by
    obtain ⟨z, hz, rfl⟩ := List.mem_map.mp hy
    refine ⟨z, hz, ?_⟩
    split
    · exact ⟨rfl, rfl, fun _ => ‹_›⟩
    · exact ⟨rfl, rfl, fun notHeld => absurd (allHeld z hz) notHeld⟩
  have claimed {n : Nat} (hn : ∃ z ∈ s.hst.slots, z.num = n) : ∃ y ∈ (s.choosing x r).hst.slots, y.num = n := by
    obtain ⟨z, hz, e⟩ := hn
    refine ⟨_, List.mem_map_of_mem hz, ?_⟩
    split <;> exact e
  have mem : { x with state := SlotState.retiring } ∈ (s.choosing x r).hst.slots :=
    List.mem_map.mpr ⟨x, hx, if_pos rfl⟩
  refine State.Consistent.begins (s := s.choosing x r)
    ⟨by rw [same _ fun _ => rfl]; exact h.cells, by rw [same _ fun _ => rfl]; exact h.nums, fun y hy => ?_, fun y hy notHeld => ?_,
      ?_, fun f hf q hq => ?_, fun q hq n hn => claimed (h.claims q hq n hn)⟩ begins
  · obtain ⟨z, hz, num, remaining, -⟩ := place hy
    rw [num, remaining]
    exact h.ranges z hz
  · obtain ⟨z, hz, num, -, chosen⟩ := place hy
    rw [num, chosen notHeld]
    exact congrArg some slot
  · rintro q ⟨⟩
    exact ⟨_, mem, slot.symm, cell.symm, nofun⟩
  · have := h.inFlight f hf q hq
    rw [none] at this
    cases this

theorem State.Consistent.transmit (h : s.Consistent) : s.transmit.Consistent := by
  rcases s.transmit_cases with e | ⟨-, -, ⟨-, e⟩ | ⟨n, rest, -, e⟩⟩ <;> rw [e]
  · exact h
  · exact { h with }
  · rcases s.startResponse_cases n rest with e | ⟨r, -, -, e⟩ <;> rw [e]
    · exact h
    · refine { h.of_claims fun q hq m hm => ?_ with }
      obtain ⟨p, hp, rfl⟩ := List.mem_map.mp hq
      refine ⟨p, hp, ?_⟩
      split at hm <;> exact hm

theorem State.Consistent.settle (h : s.Consistent) : s.settle.Consistent := by
  have awake := (h.of_keeps s.startTraining_keepsStore.work).of_keeps (State.wake_keepsStore _).work
  exact (awake.arbitrate.of_keeps (State.enterQuiet_keepsStore _).work).transmit

/-! ### Events -/

/-- A sending takes a HELD slot out or lowers its remaining reads (R108). -/
theorem State.Consistent.sendClaim (h : s.Consistent) (n : Nat) : (s.sendClaim n).Consistent := by
  cases hx : s.hst.slot? n with
  | none => unfold State.sendClaim; rw [hx]; exact h
  | some x =>
    obtain ⟨mem, rfl⟩ := HoldStore.slot?_some hx
    rcases State.sendClaim_cases hx with ⟨held, -, e⟩ | ⟨-, e⟩ <;> rw [e]
    · have counted : State.Consistent { s with counters.elided := bump s.counters.elided 1 } := { h with }
      exact (counted.freeSlot (counted.handWithout_held mem held)).checkFlush
    · exact h.update fun y hy _ => ⟨rfl, rfl, (Nat.sub_le _ _).trans (h.ranges y hy).2, Iff.rfl⟩

/-- A completed retirement is the one in hand, and its slot the only one away from HELD: taken out or returned, it leaves
every slot HELD and no retirement in hand (R113, R131). -/
theorem State.Consistent.completeRetirementWrite (h : s.Consistent) {r : Retirement}
    (op : s.operation? = some (.retirement r)) : (s.completeRetirementWrite r).Consistent := by
  obtain ⟨f, hf, opf⟩ := Option.map_eq_some_iff.mp op
  have hand : s.dcc.inHand = some r := h.inFlight f hf r opf
  obtain ⟨x, hx, slot, -, notHeld⟩ := h.inHand r hand
  let done : State := { s.freeChannel with dram := s.dram.store r.cell (.full r.data), dcc.inHand := none }
  have without : s.HandWithout r.slot done.dcc := h.handWithout_done hand rfl rfl
  obtain ⟨y, found⟩ : ∃ y, done.hst.slot? r.slot = some y :=
    Option.ne_none_iff_exists'.mp fun none => HoldStore.slot?_none.mp none x hx slot
  obtain ⟨hy, num⟩ := HoldStore.slot?_some found
  have this : y = x := h.eq_of_num hy hx (num.trans slot.symm)
  subst this
  change (done.completeRetirement r.slot).Consistent
  rcases State.completeRetirement_cases found with ⟨-, e⟩ | ⟨-, e⟩ | ⟨held, -⟩
  · rw [e]
    have freed : State.Consistent (State.freeSlot r.slot { done with counters.retired := bump done.counters.retired 1 }) :=
      { h.freeSlot without with }
    exact freed.checkFlush
  · rw [e, ← slot]
    have returned := h.rejoin (y := { y with state := .held, admitted := s.sje.epoch }) hx rfl rfl (h.ranges y hx).2 rfl
      (d := done.dcc) (by rw [slot]; exact without)
    exact { returned with }
  · exact absurd held notHeld

/-- The link's way to DOWN drops every claim with its response, and no retirement (R137, R154). -/
theorem State.Consistent.linkDown (h : s.Consistent) : s.linkDown.Consistent := by
  rcases s.linkDown_cases with ⟨-, e⟩ | ⟨-, e⟩ | ⟨-, e⟩ <;> rw [e]
  · refine { h with inFlight := fun f hf r hr => ?_, claims := nofun }
    obtain ⟨g, hg, rfl⟩ := Option.map_eq_some_iff.mp hf
    refine h.inFlight g hg r ?_
    unfold InFlight.dropRead at hr
    split at hr
    · cases hr
    · exact hr
    · exact hr
    · exact hr
  · exact { h with }
  · exact h

theorem State.Consistent.receiveFrame (h : s.Consistent) (frame : List Byte) : (s.receiveFrame frame).Consistent := by
  rcases s.receiveFrame_cases frame with ⟨-, e⟩ | ⟨r, -, ⟨-, e⟩ | ⟨-, e⟩⟩ <;> rw [e] <;> exact { h with }

/-- The channel falls free. -/
theorem State.Consistent.freeChannel (h : s.Consistent) : s.freeChannel.Consistent := { h with inFlight := nofun }

theorem State.Consistent.completeRead (h : s.Consistent) (e : ReadEntry) (dropped : Bool) :
    (s.completeRead e dropped).Consistent := by
  unfold State.completeRead
  split
  · exact h.freeChannel
  · refine { h.freeChannel.of_claims fun r hr n hn => ?_ with }
    obtain ⟨q, hq, rfl⟩ := List.mem_map.mp hr
    refine ⟨q, hq, ?_⟩
    split at hn <;> exact hn

/-- Ageing moves admission epochs alone (R115). -/
theorem State.Consistent.expireEpoch (h : s.Consistent) : s.expireEpoch.Consistent := by
  rw [State.expireEpoch_eq]
  refine { h.mapSlots (f := Slot.expire (s.sje.epoch + 1)) fun x hx => ?_ with }
  rw [Slot.expire_eq]
  exact ⟨rfl, rfl, (h.ranges x hx).2, Iff.rfl⟩

theorem State.Consistent.sendResponse (h : s.Consistent) (r : Response) : (s.sendResponse r).Consistent := by
  have freed : (s.freeResponse r).Consistent := { h with claims := fun q hq => h.claims q (List.mem_filter.mp hq).1 }
  unfold State.sendResponse
  split
  · exact freed.sendClaim _
  · exact freed

theorem State.Happens.consistent (event : s.Happens t) (h : s.Consistent) : t.Consistent := by
  cases event with
  | laneLock | frameSent | quietExpiry | endOfInit | wakingEnd | trainingSuccess => exact { h with }
  | writeCompletion | refreshCompletion => exact { h.freeChannel with }
  | laneLockLoss lane => exact State.Consistent.linkDown { h with }
  | linkReset => exact h.linkDown
  | requestFrame _ frame => exact h.receiveFrame frame
  | take head e => exact (State.takeRequest_taken e).consistent { h with }
  | epochExpiry => exact h.expireEpoch
  | refreshExpiry => unfold State.expireRefresh; split <;> exact { h with }
  | readCompletion => exact h.completeRead _ _
  | retirementCompletion op => exact h.completeRetirementWrite op
  | responseSent r => exact h.sendResponse r

theorem State.Runs.consistent (run : s.Runs t) (h : s.Consistent) : t.Consistent := by
  cases run with
  | same => exact h
  | settles event => exact (event.consistent h).settle
  | powerOnReset => exact { State.reset_consistent with }
  | rstnRise | trainingFailure | pulseEnd => exact { h with }

end

/-- Settles O49: every event keeps the store consistent, and so do the choices that follow it. -/
theorem storeStaysConsistent : Obligations.StoreStaysConsistent := by
  intro s t store e
  exact State.consistent_iff.mp (step_keeps (I := State.Consistent) (fun _ _ h => { h with })
    (fun _ _ h run => run.consistent h) s t (State.consistent_iff.mpr store) e)

end Sys2Proof.Machine
end

section
/-! PROOFS. Every step keeps the data under way at the length of its kind: requests, slots, queued writes, retirements and
response entries. Settles O51. -/

namespace Sys2Proof.Machine

/-! ### The sizes, part by part -/

/-- The sizes of all data under way (R96, R126, R130, R142, R149), and that an entry listed as ready has its bytes. -/
structure State.Sized (s : State) : Prop where
  rq : ∀ r ∈ s.rfe.rq, r.InRange
  slots : s.hst.Whole
  writeQ : ∀ w ∈ s.dcc.writeQ, w.payload.InRange
  inHand : ∀ r ∈ s.dcc.inHand, r.data.length = 256
  responses : ∀ r ∈ s.rfe.responses, r.extent.InRange ∧ (r.state ≠ .waiting → r.data.length = r.extent.size)
  readQ : ∀ e ∈ s.dcc.readQ, ∀ r ∈ s.rfe.responses, r.id = e.entry → r.extent = e.extent
  inFlight : ∀ f ∈ s.dcc.inFlight, ∀ e, f.op = .read e false →
    ∀ r ∈ s.rfe.responses, r.id = e.entry → r.extent = e.extent
  ready : ∀ n ∈ s.rfe.ready, ∀ r ∈ s.rfe.responses, r.id = n → r.state ≠ .waiting

/-- The entries that reads fill, and those listed as ready, are in use (R149, R150). -/
structure State.Reserved (s : State) : Prop where
  readQ : ∀ e ∈ s.dcc.readQ, ∃ r ∈ s.rfe.responses, r.id = e.entry
  inFlight : ∀ f ∈ s.dcc.inFlight, ∀ e, f.op = .read e false → ∃ r ∈ s.rfe.responses, r.id = e.entry
  ready : ∀ n ∈ s.rfe.ready, ∃ r ∈ s.rfe.responses, r.id = n

section
variable {s t : State}

theorem State.Sized.sizesOk (h : s.Sized) : s.SizesOk :=
  ⟨h.rq, h.slots, h.writeQ, h.inHand, h.responses, h.readQ, h.inFlight⟩

/-- An entry listed as ready is READY, and entries have distinct numbers. -/
theorem State.SizesOk.sized (h : s.SizesOk) (requests : s.RequestsOk) : s.Sized := by
  obtain ⟨rq, slots, writeQ, inHand, responses, readQ, inFlight⟩ := h
  obtain ⟨-, ⟨ids, -, -, ready, -⟩, -⟩ := requests
  refine ⟨rq, slots, writeQ, inHand, responses, readQ, inFlight, fun n hn r hr e => ?_⟩
  obtain ⟨q, hq, id, state⟩ := ready n hn
  rw [List.inj_on_of_nodup_map ids hr hq (e.trans id.symm), state]
  exact nofun

theorem State.RequestsOk.reserved (h : s.RequestsOk) : s.Reserved := by
  obtain ⟨-, ⟨-, -, -, ready, -⟩, ⟨-, targets, -⟩, -⟩ := h
  have target {n : Nat} (hn : n ∈ s.dcc.targets) : ∃ r ∈ s.rfe.responses, r.id = n := by
    obtain ⟨r, hr, id, -⟩ := targets n hn
    exact ⟨r, hr, id⟩
  refine ⟨fun e he => ?_, fun f hf e op => ?_, fun n hn => ?_⟩
  · exact target (List.mem_append_left _ (List.mem_map_of_mem he))
  · refine target (List.mem_append_right _ (Option.mem_toList.mpr (Option.bind_eq_some_iff.mpr ⟨f, hf, ?_⟩)))
    unfold InFlight.target?
    rw [op]
  · obtain ⟨r, hr, id, -⟩ := ready n hn
    exact ⟨r, hr, id⟩

theorem State.reset_sized : State.reset.Sized := ⟨nofun, nofun, nofun, nofun, nofun, nofun, nofun, nofun⟩

theorem State.Sized.of_keeps (h : s.Sized) (keeps : s.KeepsWork t) : t.Sized where
  rq := by rw [keeps.rfe]; exact h.rq
  slots := by unfold HoldStore.Whole; rw [keeps.slots]; exact h.slots
  writeQ := by rw [keeps.writeQ]; exact h.writeQ
  inHand := by rw [keeps.inHand]; exact h.inHand
  responses := by rw [keeps.rfe]; exact h.responses
  readQ := by rw [keeps.rfe, keeps.readQ]; exact h.readQ
  inFlight := by rw [keeps.rfe, keeps.inFlight]; exact h.inFlight
  ready := by rw [keeps.rfe]; exact h.ready

theorem State.Reserved.of_keeps (h : s.Reserved) (keeps : s.KeepsWork t) : t.Reserved where
  readQ := by rw [keeps.rfe, keeps.readQ]; exact h.readQ
  inFlight := by rw [keeps.rfe, keeps.inFlight]; exact h.inFlight
  ready := by rw [keeps.rfe]; exact h.ready

/-- A store whose slots are whole. -/
theorem State.Sized.of_slots (h : s.Sized) {hst : HoldStore} (whole : hst.Whole) (counters : DeviceCounters) :
    State.Sized { s with hst := hst, counters := counters } := { h with slots := whole }

theorem State.Sized.checkFlush (h : s.Sized) : s.checkFlush.Sized := h.of_keeps s.checkFlush_keepsWork

/-! ### Response entries -/

/-- What becomes of a response entry: it keeps its number and its extent, and its bytes arrive and stay. -/
structure Response.Becomes (r q : Response) : Prop where
  id : q.id = r.id
  extent : q.extent = r.extent
  data : q.state ≠ .waiting → q.data.length = r.extent.size
  arrived : r.state ≠ .waiting → q.state ≠ .waiting

/-- Response entries that stay, change or go, and a ready order of such as were ready or have their bytes now. -/
theorem State.Sized.of_responses (h : s.Sized) {responses : List Response} {ready : List Nat}
    (becomes : ∀ q ∈ responses, ∃ r ∈ s.rfe.responses, r.Becomes q)
    (arrived : ∀ n ∈ ready, n ∈ s.rfe.ready ∨ ∀ q ∈ responses, q.id = n → q.state ≠ .waiting) :
    State.Sized { s with rfe.responses := responses, rfe.ready := ready } := by
  refine { h with
    responses := fun q hq => ?_, readQ := fun e he q hq id => ?_, inFlight := fun f hf e op q hq id => ?_
    ready := fun n hn q hq id => ?_ }
  · obtain ⟨r, hr, b⟩ := becomes q hq
    rw [b.extent]
    exact ⟨(h.responses r hr).1, b.data⟩
  · obtain ⟨r, hr, b⟩ := becomes q hq
    exact b.extent.trans (h.readQ e he r hr (b.id.symm.trans id))
  · obtain ⟨r, hr, b⟩ := becomes q hq
    exact b.extent.trans (h.inFlight f hf e op r hr (b.id.symm.trans id))
  · rcases arrived n hn with before | now
    · obtain ⟨r, hr, b⟩ := becomes q hq
      exact b.arrived (h.ready n before r hr (b.id.symm.trans id))
    · exact now q hq id

theorem State.Sized.freeResponse (h : s.Sized) (r : Response) : (s.freeResponse r).Sized := by
  refine { h.of_responses (fun q hq => ⟨q, (List.mem_filter.mp hq).1, ?_⟩) (fun n hn => .inl hn) with }
  exact ⟨rfl, rfl, (h.responses q (List.mem_filter.mp hq).1).2, id⟩

theorem State.Sized.voidClaims (h : s.Sized) (n : Nat) : (s.voidClaims n).Sized := by
  refine h.of_responses (fun q hq => ?_) (fun n hn => .inl hn)
  obtain ⟨r, hr, rfl⟩ := List.mem_map.mp hq
  refine ⟨r, hr, ?_⟩
  split <;> exact ⟨rfl, rfl, (h.responses r hr).2, id⟩

theorem State.Sized.freeSlot (h : s.Sized) (n : Nat) : (s.freeSlot n).Sized := by
  have removed : State.Sized { s with hst := s.hst.remove n } :=
    { h with slots := fun y hy => h.slots y (mem_remove.mp hy).1 }
  exact removed.voidClaims n

/-- A new entry of a number that no read fills and no place in the ready order names. -/
theorem State.Sized.addResponse (h : s.Sized) (reserved : s.Reserved) {e : Response}
    (free : ∀ x ∈ s.rfe.responses, x.id ≠ e.id) (extent : e.extent.InRange)
    (size : e.state ≠ .waiting → e.data.length = e.extent.size) : (s.addResponse e).Sized := by
  have old {r : Response} {n : Nat} (hr : r ∈ s.rfe.responses ++ [e]) (id : r.id = n)
      (used : ∃ q ∈ s.rfe.responses, q.id = n) : r ∈ s.rfe.responses := by
    obtain ⟨q, hq, hn⟩ := used
    refine (List.mem_append.mp hr).resolve_right fun new => free q hq ?_
    rw [← List.mem_singleton.mp new, id, hn]
  refine { h with
    responses := fun r hr => ?_, readQ := fun x hx r hr id => ?_, inFlight := fun f hf x op r hr id => ?_
    ready := fun n hn r hr id => ?_ }
  · rcases List.mem_append.mp hr with hr | new
    · exact h.responses r hr
    · rw [List.mem_singleton.mp new]; exact ⟨extent, size⟩
  · exact h.readQ x hx r (old hr id (reserved.readQ x hx)) id
  · exact h.inFlight f hf x op r (old hr id (reserved.inFlight f hf x op)) id
  · by_cases before : n ∈ s.rfe.ready
    · exact h.ready n before r (old hr id (reserved.ready n before)) id
    · rw [State.addResponse_rfe_ready] at hn
      split at hn
      · rename_i ready
        have hn : n = e.id := ((List.mem_append.mp hn).resolve_left before |> List.mem_singleton.mp)
        rcases List.mem_append.mp hr with hr | new
        · exact absurd (id.trans hn) (free r hr)
        · rw [List.mem_singleton.mp new, ready]; exact nofun
      · exact absurd hn before

/-! ### The outcomes of a take -/

theorem State.Sized.withWrite (h : s.Sized) (cell : Nat) {w : WriteData} (size : w.InRange) :
    (s.withWrite cell w).Sized := by
  refine { h with writeQ := fun x hx => ?_ }
  rcases List.mem_append.mp hx with hx | new
  · exact h.writeQ x hx
  · rw [List.mem_singleton.mp new]; exact size

theorem State.Sized.withRead (h : s.Sized) {cell entry : Nat} {x : Extent} {boost : Bool}
    (extent : ∀ r ∈ s.rfe.responses, r.id = entry → r.extent = x) : (s.withRead cell x entry boost).Sized := by
  refine { h with readQ := fun e he => ?_ }
  rcases List.mem_append.mp he with he | new
  · exact h.readQ e he
  · rw [List.mem_singleton.mp new]; exact extent

theorem State.Sized.overwrite (h : s.Sized) (x : Slot) {data : List Byte} (size : data.length = 256) :
    (s.overwrite x data).Sized := by
  by_cases held : x.state = .held
  · rw [s.overwrite_of_held data held]
    refine (h.of_slots (fun y hy => ?_) _).voidClaims x.num
    rcases List.mem_append.mp hy with hy | new
    · exact h.slots y (mem_remove.mp hy).1
    · rw [List.mem_singleton.mp new]; exact size
  · rw [s.overwrite_of_away data held]
    refine (h.of_slots (fun y hy => ?_) _).voidClaims x.num
    obtain ⟨z, hz, rfl⟩ := List.mem_map.mp hy
    split
    · exact size
    · exact h.slots z hz

theorem State.Sized.admitCell (h : s.Sized) {k : Fin 64} {n cell : Nat} {data : List Byte} (size : data.length = 256) :
    (s.admitCell k n cell data).Sized := by
  rw [State.admitCell_eq]
  refine { h with slots := fun y hy => ?_ }
  rcases List.mem_append.mp hy with hy | new
  · exact h.slots y hy
  · rw [List.mem_singleton.mp new]; exact size

theorem State.Sized.mergeHeld (h : s.Sized) (x : Slot) {w : Nat} {word : List Byte} (hw : w < 32)
    (size : word.length = 8) : (s.mergeHeld x w word).Sized := by
  refine { h with slots := fun y hy => ?_ }
  obtain ⟨z, hz, rfl⟩ := List.mem_map.mp hy
  split
  · exact mergeWord_length (h.slots z hz) hw size
  · exact h.slots z hz

theorem State.Taken.sized {r : Request} (taken : s.Taken r t) (h : s.Sized) (reserved : s.Reserved) (range : r.InRange) :
    t.Sized := by
  cases taken with
  | discarded keeps => exact h.of_keeps keeps.work
  | queued keeps size => exact (h.of_keeps keeps.work).withWrite _ (size range)
  | decoded size => exact (h.withWrite _ (size range)).of_keeps (State.writeControls_keepsWork _ _)
  | overwritten keeps _ size => exact (h.of_keeps keeps.work).overwrite _ (size range)
  | admitted keeps _ _ _ size => exact (h.of_keeps keeps.work).admitCell (size range)
  | merged size => exact h.mergeHeld _ (size range).1 (size range).2
  | answered keeps free _ _ extent size =>
    have tracked := h.of_keeps keeps.work
    exact tracked.addResponse (reserved.of_keeps keeps.work) free (extent range) fun _ => size range tracked.slots
  | awaited keeps free waiting _ extent =>
    have added := (h.of_keeps keeps.work).addResponse (reserved.of_keeps keeps.work) free (extent range)
      (fun notWaiting => absurd waiting notWaiting)
    refine added.withRead fun q hq id => ?_
    rcases List.mem_append.mp hq with old | new
    · exact absurd id (free q old)
    · rw [List.mem_singleton.mp new]

/-! ### The choices that follow an event -/

/-- An operation that begins comes from its queue, with the extent of its entry. -/
theorem State.Sized.begins (h : s.Sized) {d : Channel} (begins : s.dcc.Begins d) : State.Sized { s with dcc := d } :=
  { h with
    writeQ := fun w hw => h.writeQ w (begins.writeQ.subset hw)
    inHand := by rw [begins.inHand]; exact h.inHand
    readQ := fun e he => h.readQ e (begins.readQ.subset he)
    inFlight := fun f hf e op => h.readQ e (begins.read f hf e false op) }

/-- The data of a retirement are those of its slot at the choice (R130). -/
theorem State.Sized.arbitrate (h : s.Sized) : s.arbitrate.Sized := by
  rcases s.arbitrate_begins with e | ⟨d, begins, e⟩ | ⟨x, hx, r, d, -, -, -, -, data, begins, e⟩ <;> rw [e]
  · exact h
  · exact h.begins begins
  refine State.Sized.begins (s := s.choosing x r) { h with slots := fun y hy => ?_, inHand := ?_ } begins
  · obtain ⟨z, hz, rfl⟩ := List.mem_map.mp hy
    split <;> exact h.slots z hz
  · rintro q ⟨⟩
    rw [data]
    exact h.slots x hx

/-- The entry that is sent next was listed as ready, and so has its bytes (R151). -/
theorem State.Sized.transmit (h : s.Sized) : s.transmit.Sized := by
  rcases s.transmit_cases with e | ⟨-, -, ⟨-, e⟩ | ⟨n, rest, first, e⟩⟩ <;> rw [e]
  · exact h
  · exact { h with }
  rcases s.startResponse_cases n rest with e' | ⟨r, -, -, e'⟩ <;> rw [e']
  · exact h
  have ready (m : Nat) (hm : m ∈ n :: rest) : m ∈ s.rfe.ready := by rw [first]; exact hm
  refine { h.of_responses (fun q hq => ?_) (fun m hm => .inl (ready m (List.mem_cons_of_mem _ hm))) with }
  obtain ⟨r, hr, rfl⟩ := List.mem_map.mp hq
  refine ⟨r, hr, ?_⟩
  split
  · rename_i id
    have arrived := h.ready n (ready n List.mem_cons_self) r hr id
    exact ⟨rfl, rfl, fun _ => (h.responses r hr).2 arrived, fun _ => nofun⟩
  · exact ⟨rfl, rfl, (h.responses r hr).2, id⟩

theorem State.Sized.settle (h : s.Sized) : s.settle.Sized := by
  have awake := (h.of_keeps s.startTraining_keepsStore.work).of_keeps (State.wake_keepsStore _).work
  exact (awake.arbitrate.of_keeps (State.enterQuiet_keepsStore _).work).transmit

/-! ### Events -/

/-- A frame that passes its check has the length of its kind, and so has the data of its request (R142, R178). -/
theorem decodeFrame_inRange {f : List Byte} {r : Request} (h : decodeFrame f = some r) : r.InRange := by
  unfold decodeFrame at h
  split at h <;> cases h
  rename_i passes
  have len : f.length = requestLength (requestKind (leField f 0 4)) := by
    unfold framePasses at passes
    rw [Bool.and_eq_true] at passes
    exact beq_iff_eq.mp passes.1
  have cell : leField f 0 4 % 2 ^ 26 < 2 ^ 26 := Nat.mod_lt _ (by decide)
  have word : (byteAt f 4).toNat % 32 < 32 := Nat.mod_lt _ (by decide)
  have taken {k n : Nat} (h : k + n ≤ f.length) : ((f.drop k).take n).length = n := by
    rw [List.length_take, List.length_drop]
    omega
  unfold frameRequest
  dsimp only
  split <;> rename_i kind
  · rw [kind] at len; exact ⟨cell, taken (by rw [len]; decide)⟩
  · rw [kind] at len; exact ⟨cell, word, taken (by rw [len]; decide)⟩
  · exact cell
  · exact ⟨cell, word⟩

theorem State.Sized.receiveFrame (h : s.Sized) (frame : List Byte) : (s.receiveFrame frame).Sized := by
  rcases s.receiveFrame_cases frame with ⟨-, e⟩ | ⟨r, decoded, ⟨-, e⟩ | ⟨-, e⟩⟩ <;> rw [e]
  · exact { h with }
  · refine { h with rq := fun q hq => ?_ }
    rcases List.mem_append.mp hq with hq | new
    · exact h.rq q hq
    · rw [List.mem_singleton.mp new]; exact decodeFrame_inRange decoded
  · exact { h with }

/-- A link drop leaves no request and no entry (R137, R154). -/
theorem State.Sized.linkDown (h : s.Sized) : s.linkDown.Sized := by
  rcases s.linkDown_cases with ⟨-, e⟩ | ⟨-, e⟩ | ⟨-, e⟩ <;> rw [e]
  · exact { h with rq := nofun, responses := nofun, readQ := nofun, inFlight := fun _ _ _ _ => nofun, ready := nofun }
  · exact { h with }
  · exact h

theorem State.Sized.freeChannel (h : s.Sized) : s.freeChannel.Sized := { h with inFlight := nofun }

theorem Dram.readExtent_length (d : Dram) (cell : Nat) (x : Extent) : (d.readExtent cell x).length = x.size := by
  simp [Dram.readExtent, Dram.bytes]

/-- The bytes of a read fill its entry, whose extent is the read's (R132). -/
theorem State.Sized.completeRead (h : s.Sized) {e : ReadEntry} {dropped : Bool}
    (op : s.operation? = some (.read e dropped)) : (s.completeRead e dropped).Sized := by
  unfold State.completeRead
  split
  · exact h.freeChannel
  rename_i lands
  obtain ⟨f, hf, opf⟩ := Option.map_eq_some_iff.mp op
  have kept : dropped = false := by
    cases dropped with
    | false => rfl
    | true => exact absurd rfl lands
  rw [kept] at opf
  refine h.freeChannel.of_responses (fun q hq => ?_) (fun n hn => ?_)
  · obtain ⟨r, hr, rfl⟩ := List.mem_map.mp hq
    refine ⟨r, hr, ?_⟩
    split
    · rename_i id
      refine ⟨rfl, rfl, fun _ => ?_, fun _ => nofun⟩
      rw [h.inFlight f hf e opf r hr id]
      exact (rewritten_length _ _).trans (s.dram.readExtent_length _ _)
    · exact ⟨rfl, rfl, (h.responses r hr).2, id⟩
  · refine (List.mem_append.mp hn).imp_right fun new q hq id => ?_
    obtain ⟨r, -, rfl⟩ := List.mem_map.mp hq
    rw [List.mem_singleton.mp new] at id
    split
    · exact nofun
    · rename_i other
      rw [if_neg other] at id
      exact absurd id other

theorem State.Sized.sendClaim (h : s.Sized) (n : Nat) : (s.sendClaim n).Sized := by
  cases hx : s.hst.slot? n with
  | none => unfold State.sendClaim; rw [hx]; exact h
  | some x =>
    rcases State.sendClaim_cases hx with ⟨-, -, e⟩ | ⟨-, e⟩ <;> rw [e]
    · have counted : State.Sized { s with counters.elided := bump s.counters.elided 1 } := { h with }
      exact (counted.freeSlot n).checkFlush
    · refine { h with slots := fun y hy => ?_ }
      obtain ⟨z, hz, rfl⟩ := List.mem_map.mp hy
      split <;> exact h.slots z hz

theorem State.Sized.completeRetirement (h : s.Sized) (n : Nat) : (s.completeRetirement n).Sized := by
  cases hx : s.hst.slot? n with
  | none => unfold State.completeRetirement; rw [hx]; exact h
  | some x =>
    rcases State.completeRetirement_cases hx with ⟨-, e⟩ | ⟨-, e⟩ | ⟨-, e⟩ <;> rw [e]
    · have counted : State.Sized { s with counters.retired := bump s.counters.retired 1 } := { h with }
      exact (counted.freeSlot n).checkFlush
    · refine { h with slots := fun y hy => ?_ }
      rcases List.mem_append.mp hy with hy | new
      · exact h.slots y (mem_remove.mp hy).1
      · rw [List.mem_singleton.mp new]; exact h.slots x (HoldStore.slot?_some hx).1
    · exact h

theorem State.Sized.expireEpoch (h : s.Sized) : s.expireEpoch.Sized := by
  rw [State.expireEpoch_eq]
  refine { h with slots := fun y hy => ?_ }
  obtain ⟨x, hx, rfl⟩ := List.mem_map.mp hy
  rw [Slot.expire_eq]
  exact h.slots x hx

theorem State.Happens.sized (event : s.Happens t) (h : s.Sized) (reserved : s.Reserved) : t.Sized := by
  cases event with
  | laneLock | frameSent | quietExpiry | endOfInit | wakingEnd | trainingSuccess => exact { h with }
  | writeCompletion | refreshCompletion => exact { h.freeChannel with }
  | laneLockLoss lane => exact State.Sized.linkDown { h with }
  | linkReset => exact h.linkDown
  | requestFrame _ frame => exact h.receiveFrame frame
  | @take r rest u head e =>
    have range : r.InRange := h.rq r (by rw [head]; exact List.mem_cons_self)
    have popped : (s.popHead rest).Sized :=
      { h with rq := fun q hq => h.rq q (by rw [head]; exact List.mem_cons_of_mem _ hq) }
    exact (State.takeRequest_taken e).sized popped { reserved with } range
  | epochExpiry => exact h.expireEpoch
  | refreshExpiry => unfold State.expireRefresh; split <;> exact { h with }
  | readCompletion op => exact h.completeRead op
  | retirementCompletion =>
    unfold State.completeRetirementWrite
    refine State.Sized.completeRetirement ?_ _
    exact { h.freeChannel with inHand := nofun }
  | responseSent r =>
    unfold State.sendResponse
    split
    · exact (h.freeResponse r).sendClaim _
    · exact h.freeResponse r

theorem State.Runs.sized (run : s.Runs t) (h : s.Sized) (reserved : s.Reserved) : t.Sized := by
  cases run with
  | same => exact h
  | settles event => exact (event.sized h reserved).settle
  | powerOnReset => exact { State.reset_sized with }
  | rstnRise | trainingFailure | pulseEnd => exact { h with }

end

/-- Settles O51: the entries that reads fill are in use before the step, so that a take's new entry is none of theirs. -/
theorem sizesStayExact : Obligations.SizesStayExact := by
  intro s t requests sizes e
  have sized := sizes.sized requests
  have reserved := requests.reserved
  unfold step at e
  split at e
  · cases e; exact sizes
  · exact ((exec_runs e).sized { sized with } { reserved with }).sizesOk

end Sys2Proof.Machine
end

section
/-! PROOFS. The balance of the store's counters: an admission, an elision and a retirement each move one counter and the
fill together, the completion of a soft reset brings all of them to 0, and nothing else but a counter-clear word moves
them. Settles O54. -/

namespace Sys2Proof.Machine

/-! ### The sum of the admitted counters -/

/-- A sum over the rings, ring by ring. -/
theorem sum_rings (s : State) (f : Ring → Nat) : (s.rings.toList.map f).sum = ∑ k : Fin 64, f (s.ring k) := by
  have rings : s.rings = Vector.ofFn (fun k : Fin 64 => s.ring k) := by
    ext i hi : 1
    rw [Vector.getElem_ofFn]
    rfl
  rw [rings, Vector.toList_ofFn, List.map_ofFn, List.sum_ofFn]
  rfl

theorem State.admittedSum_eq (s : State) : s.admittedSum = ∑ k : Fin 64, (s.ring k).counters.admitted := sum_rings s _

/-- One admission more in one ring is one more in the sum. -/
theorem State.admittedSum_succ {s t : State} {k : Fin 64} (others : ∀ j, j ≠ k → t.ring j = s.ring j)
    (h : (t.ring k).counters.admitted = (s.ring k).counters.admitted + 1) : t.admittedSum = s.admittedSum + 1 := by
  rw [State.admittedSum_eq, State.admittedSum_eq, ← Finset.add_sum_erase _ _ (Finset.mem_univ k),
    ← Finset.add_sum_erase _ _ (Finset.mem_univ k), h,
    Finset.sum_congr rfl fun j hj => by rw [others j (Finset.ne_of_mem_erase hj)]]
  omega

/-- A counter that has not reached its maximum counted one more. -/
theorem bump_one_of_lt {n : Nat} (h : bump n 1 < 0xFFFFFFFF) : bump n 1 = n + 1 := by
  unfold bump at h ⊢
  omega

section
variable {s t u : State}

theorem State.BalanceOk.of_counts (h : s.BalanceOk) (keeps : s.KeepsCounts t)
    (fill : t.hst.slots.length = s.hst.slots.length) : t.BalanceOk := by
  unfold State.BalanceOk at h ⊢
  rw [State.admittedSum_eq, Finset.sum_congr rfl fun k _ => keeps.admitted k, ← State.admittedSum_eq, keeps.elided,
    keeps.retired, h]
  exact congrArg _ fill.symm

theorem State.BalanceOk.of_keeps (h : s.BalanceOk) (keeps : s.KeepsStore t) : t.BalanceOk :=
  h.of_counts keeps.counts (congrArg _ keeps.work.slots)

/-! ### Slots that leave -/

/-- A slot that is taken out is one slot fewer (R96). -/
theorem HoldStore.length_remove {h : HoldStore} {x : Slot} (nums : (h.slots.map (fun x => x.num)).Nodup)
    (hx : x ∈ h.slots) : (h.remove x.num).slots.length + 1 = h.slots.length := by
  have one : h.slots.countP (fun y => y.num == x.num) = 1 := by
    have count := List.count_eq_one_of_mem nums (List.mem_map_of_mem (f := fun x => x.num) hx)
    rwa [List.count, List.countP_map] at count
  rw [HoldStore.remove_slots, ← List.countP_eq_length_filter,
    h.slots.length_eq_countP_add_countP (fun y => y.num == x.num), one, Nat.add_comm]
  congr 2
  funext y
  exact Bool.eq_iff_iff.mpr (by simp)

/-- A soft reset that completes finds the store empty, and every counter is 0 after it (R118, R167). -/
theorem State.completeSoftReset_balanceOk (h : s.hst.slots = []) : s.completeSoftReset.BalanceOk := by
  unfold State.BalanceOk
  rw [State.admittedSum_eq, Finset.sum_eq_zero fun k _ => by rw [State.completeSoftReset_ring]; rfl]
  change 0 = 0 + 0 + s.hst.slots.length
  rw [h]
  rfl

/-- The end of a flush keeps the balance, where the counters had it unsaturated. -/
theorem State.checkFlush_balanceOk (unsaturated : s.checkFlush.Unsaturated) (h : s.Unsaturated → s.BalanceOk) :
    s.checkFlush.BalanceOk := by
  rcases s.checkFlush_cases with ⟨-, empty, e⟩ | ⟨-, e⟩ <;> rw [e] at unsaturated ⊢
  · exact State.completeSoftReset_balanceOk empty
  · exact h unsaturated

theorem State.BalanceOk.checkFlush (h : s.BalanceOk) : s.checkFlush.BalanceOk := by
  rcases s.checkFlush_cases with ⟨-, empty, e⟩ | ⟨-, e⟩ <;> rw [e]
  · exact State.completeSoftReset_balanceOk empty
  · exact h

/-- A sending that elides its slot counts one elision for one slot (R108, R121). -/
theorem State.sendClaim_balanceOk (store : s.StoreOk) (h : s.BalanceOk) (n : Nat)
    (unsaturated : (s.sendClaim n).Unsaturated) : (s.sendClaim n).BalanceOk := by
  obtain ⟨⟨-, nums, -⟩, -⟩ := store
  cases hx : s.hst.slot? n with
  | none => unfold State.sendClaim; rw [hx]; exact h
  | some x =>
    obtain ⟨mem, rfl⟩ := HoldStore.slot?_some hx
    have removed := HoldStore.length_remove nums mem
    rcases State.sendClaim_cases hx with ⟨-, -, e⟩ | ⟨-, e⟩ <;> rw [e] at unsaturated ⊢
    · refine State.checkFlush_balanceOk unsaturated fun ⟨elided, _, _⟩ => ?_
      have counted : bump s.counters.elided 1 = s.counters.elided + 1 := bump_one_of_lt elided
      change s.admittedSum = bump s.counters.elided 1 + s.counters.retired + (s.hst.remove x.num).slots.length
      rw [counted, h, HoldStore.fill]
      omega
    · exact h.of_counts (.of_rings rfl rfl rfl) (List.length_map _)

/-- A completed retirement that frees its slot counts one retirement for one slot (R113, R121). -/
theorem State.completeRetirement_balanceOk (store : s.hst.SlotsOk) (h : s.BalanceOk) (n : Nat)
    (unsaturated : (s.completeRetirement n).Unsaturated) : (s.completeRetirement n).BalanceOk := by
  obtain ⟨-, nums, -⟩ := store
  cases hx : s.hst.slot? n with
  | none => unfold State.completeRetirement; rw [hx]; exact h
  | some x =>
    obtain ⟨mem, rfl⟩ := HoldStore.slot?_some hx
    have removed := HoldStore.length_remove nums mem
    rcases State.completeRetirement_cases hx with ⟨-, e⟩ | ⟨-, e⟩ | ⟨-, e⟩ <;> rw [e] at unsaturated ⊢
    · refine State.checkFlush_balanceOk unsaturated fun ⟨_, retired, _⟩ => ?_
      have counted : bump s.counters.retired 1 = s.counters.retired + 1 := bump_one_of_lt retired
      change s.admittedSum = s.counters.elided + bump s.counters.retired 1 + (s.hst.remove x.num).slots.length
      rw [counted, h, HoldStore.fill]
      omega
    · exact h.of_counts (.of_rings rfl rfl rfl) (List.length_append.trans removed)
    · exact h

/-! ### Control words -/

theorem State.enableRing_keepsCounts (s : State) (k : Fin 64) : s.KeepsCounts (s.enableRing k) := by
  unfold State.enableRing
  split_ifs
  · exact .refl s
  · exact .of_rings rfl rfl rfl
  · exact .of_setRing rfl

theorem State.disableRing_keepsCounts (s : State) (k : Fin 64) : s.KeepsCounts (s.disableRing k) := by
  unfold State.disableRing
  split_ifs
  · exact .trans (t := { s with poolFree := s.poolFree + (s.ring k).records.length }) (.of_rings rfl rfl rfl)
      (.of_setRing rfl)
  · exact .refl s

/-- No control word but a counter-clear word of 1 disturbs the balance (R163, R173). -/
theorem State.BalanceOk.writeControl (h : s.BalanceOk) {c : ControlWord} {w : List Byte}
    (noClear : isCounterClearWord c w = false) : (s.writeControl c w).BalanceOk := by
  have fill : (s.writeControl c w).hst.slots.length = s.hst.slots.length := by
    rw [(s.writeControl_keepsWork c w).slots]
  cases c with
  | epochSettings | refreshQuiet | alertLine | flagClear | plain => exact h.of_counts (.of_rings rfl rfl rfl) fill
  | storeSettings =>
    refine h.of_counts ?_ fill
    unfold State.writeControl State.writeStoreSettings
    dsimp only
    rw [State.raiseStoreMust_eq]
    exact .of_rings rfl rfl rfl
  | softReset =>
    unfold State.writeControl State.writeSoftReset State.startSoftReset
    dsimp only
    split_ifs
    · exact h
    · have flush : State.BalanceOk { s with swu.softReset := true, hst.flush := true } := h
      exact flush.checkFlush
    · exact h
  | ring k j =>
    obtain ⟨g, x, e, -⟩ := (s.ring k).writeWord_stages j w
    refine h.of_counts (.of_setRing ?_) fill
    rw [e]
  | enable k =>
    refine h.of_counts ?_ fill
    unfold State.writeControl State.writeEnable
    dsimp only
    split_ifs
    · exact s.enableRing_keepsCounts k
    · exact s.disableRing_keepsCounts k
    · exact .refl s
  | counterClear =>
    have notOne : leNat w ≠ 1 := fun one => by
      unfold isCounterClearWord at noClear
      rw [one] at noClear
      exact absurd noClear nofun
    unfold State.writeControl State.writeCounterClear
    dsimp only
    rw [if_neg notOne]
    exact h

theorem State.BalanceOk.writeControls (h : s.BalanceOk) {cs : List (ControlWord × List Byte)}
    (noClear : ∀ x ∈ cs, isCounterClearWord x.1 x.2 = false) : (s.writeControls cs).BalanceOk := by
  unfold State.writeControls
  induction cs generalizing s with
  | nil => exact h
  | cons x cs ih =>
    obtain ⟨first, later⟩ := List.forall_mem_cons.mp noClear
    exact ih (h.writeControl first) later

/-! ### Takes -/

/-- An overwritten slot is still one slot. -/
theorem State.overwrite_length {x : Slot} (data : List Byte) (nums : (s.hst.slots.map (fun x => x.num)).Nodup)
    (hx : x ∈ s.hst.slots) : (s.overwrite x data).hst.slots.length = s.hst.slots.length := by
  by_cases held : x.state = .held
  · rw [s.overwrite_of_held data held]
    exact List.length_append.trans (HoldStore.length_remove nums hx)
  · rw [s.overwrite_of_away data held]
    exact List.length_map _

/-- An admission counts one for one slot more (R101, R121). -/
theorem State.BalanceOk.admitCell (h : s.BalanceOk) {k : Fin 64} {n cell : Nat} {data : List Byte}
    (unsaturated : (s.admitCell k n cell data).Unsaturated) : (s.admitCell k n cell data).BalanceOk := by
  have admitted := unsaturated.2.2 k
  rw [State.admitCell_ring_self] at admitted
  have sum : (s.admitCell k n cell data).admittedSum = s.admittedSum + 1 :=
    State.admittedSum_succ (fun j hj => s.admitCell_ring_of_ne k n cell data hj)
      (by rw [State.admitCell_ring_self]; exact bump_one_of_lt admitted)
  unfold State.BalanceOk at h ⊢
  rw [sum, State.admitCell_counters, State.admitCell_hst, h, HoldStore.fill, HoldStore.fill, HoldStore.join_slots,
    List.length_append, List.length_singleton]
  omega

/-- The take of a request without a counter-clear word of 1 keeps the balance. -/
theorem State.Taken.balanceOk {r : Request} (taken : s.Taken r u) (store : s.StoreOk) (h : s.BalanceOk)
    (unsaturated : u.Unsaturated) (noClear : ∀ x ∈ s.controlWords r, isCounterClearWord x.1 x.2 = false) :
    u.BalanceOk := by
  cases taken with
  | discarded keeps => exact h.of_keeps keeps
  | queued keeps => exact (h.of_keeps keeps).of_counts (.of_rings rfl rfl rfl) rfl
  | decoded => exact (h.of_counts (t := s.withWrite _ _) (.of_rings rfl rfl rfl) rfl).writeControls noClear
  | overwritten keeps held =>
    obtain ⟨⟨-, nums, -⟩, -⟩ := store
    rw [← keeps.work.slots] at nums
    exact (h.of_keeps keeps).of_counts (.of_rings rfl rfl rfl) (State.overwrite_length _ nums held)
  | admitted keeps => exact (h.of_keeps keeps).admitCell unsaturated
  | merged => exact h.of_counts (.of_rings rfl rfl rfl) (List.length_map _)
  | answered keeps => exact (h.of_keeps keeps).of_counts (.of_rings rfl rfl rfl) rfl
  | awaited keeps => exact (h.of_keeps keeps).of_counts (.of_rings rfl rfl rfl) rfl

/-- Once the head has left, the take leaves the Request Queue. -/
theorem State.Taken.rq {r : Request} (taken : s.Taken r u) : u.rfe.rq = s.rfe.rq := by
  cases taken with
  | discarded keeps | queued keeps | overwritten keeps | answered keeps | awaited keeps =>
    have rq := congrArg FrontEnd.rq keeps.work.rfe
    exact rq
  | decoded => exact congrArg FrontEnd.rq (State.writeControls_keepsWork _ _).rfe
  | admitted keeps => rw [State.admitCell_rfe]; exact congrArg FrontEnd.rq keeps.work.rfe
  | merged => rfl

/-! ### The choices that follow an event -/

theorem State.arbitrate_length (s : State) : s.arbitrate.hst.slots.length = s.hst.slots.length := by
  rcases s.arbitrate_begins with e | ⟨d, -, e⟩ | ⟨x, -, r, d, -, -, -, -, -, -, e⟩ <;> rw [e]
  exact List.length_map _

/-- The start of a frame leaves the slots and the Request Queue. -/
theorem State.transmit_slots_rq (s : State) :
    s.transmit.hst.slots = s.hst.slots ∧ s.transmit.rfe.rq = s.rfe.rq := by
  rcases s.transmit_cases with e | ⟨-, -, ⟨-, e⟩ | ⟨n, rest, -, e⟩⟩ <;> rw [e]
  · exact ⟨rfl, rfl⟩
  · exact ⟨rfl, rfl⟩
  · rcases s.startResponse_cases n rest with e' | ⟨r, -, -, e'⟩ <;> rw [e'] <;> exact ⟨rfl, rfl⟩

theorem State.arbitrate_rfe (s : State) : s.arbitrate.rfe = s.rfe := by
  rcases s.arbitrate_begins with e | ⟨d, -, e⟩ | ⟨x, -, r, d, -, -, -, -, -, -, e⟩ <;> rw [e]
  rfl

theorem State.settle_length (s : State) : s.settle.hst.slots.length = s.hst.slots.length := by
  have training := s.startTraining_keepsStore.work.slots
  have awake := s.startTraining.wake_keepsStore.work.slots
  have quiet := s.startTraining.wake.arbitrate.enterQuiet_keepsStore.work.slots
  unfold State.settle
  rw [(State.transmit_slots_rq _).1, quiet, State.arbitrate_length, awake, training]

theorem State.settle_rq (s : State) : s.settle.rfe.rq = s.rfe.rq := by
  have training := s.startTraining_keepsStore.work.rfe
  have awake := s.startTraining.wake_keepsStore.work.rfe
  have quiet := s.startTraining.wake.arbitrate.enterQuiet_keepsStore.work.rfe
  unfold State.settle
  rw [(State.transmit_slots_rq _).2, quiet, State.arbitrate_rfe, awake, training]

theorem State.settle_keepsCounts (s : State) : s.KeepsCounts s.settle := by
  rw [s.settle_alike]
  exact .of_rings rfl rfl rfl

/-! ### The commands -/

/-- What the statement says of one run of a command that clears no counter. -/
def State.Balances (s t : State) : Prop := s.StoreOk → s.BalanceOk → t.Unsaturated → t.BalanceOk

theorem State.Balances.refl (s : State) : s.Balances s := fun _ h _ => h

/-- The choices that follow an event move no counter and no fill. -/
theorem State.Balances.settle (h : s.Balances u) : s.Balances u.settle := by
  intro store balance unsaturated
  have counts := u.settle_keepsCounts
  obtain ⟨elided, retired, admitted⟩ := unsaturated
  rw [counts.elided] at elided
  rw [counts.retired] at retired
  refine (h store balance ⟨elided, retired, fun k => ?_⟩).of_counts counts u.settle_length
  rw [← counts.admitted]
  exact admitted k

/-- An event that leaves the counters of the balance and the slots. -/
theorem State.Balances.of_same (rings : t.rings = s.rings) (elided : t.counters.elided = s.counters.elided)
    (retired : t.counters.retired = s.counters.retired) (slots : t.hst.slots = s.hst.slots) : s.Balances t :=
  fun _ h _ => h.of_counts (.of_rings rings elided retired) (congrArg _ slots)

theorem State.Balances.ite {c : Prop} [Decidable c] (h : c → s.Balances u) : s.Balances (if c then u else s) := by
  split
  · exact h ‹_›
  · exact .refl s

theorem State.linkDown_balances (s : State) : s.Balances s.linkDown := by
  rcases s.linkDown_cases with ⟨-, e⟩ | ⟨-, e⟩ | ⟨-, e⟩ <;> rw [e] <;> exact .of_same rfl rfl rfl rfl

theorem State.receiveFrame_balances (s : State) (frame : List Byte) : s.Balances (s.receiveFrame frame) := by
  rcases s.receiveFrame_cases frame with ⟨-, e⟩ | ⟨r, -, ⟨-, e⟩ | ⟨-, e⟩⟩ <;> rw [e] <;> exact .of_same rfl rfl rfl rfl

theorem State.expireRefresh_balances (s : State) : s.Balances s.expireRefresh := by
  unfold State.expireRefresh
  split <;> exact .of_same rfl rfl rfl rfl

/-- An expiry moves no counter of a ring. -/
theorem State.expireEpoch_balances (s : State) : s.Balances s.expireEpoch := by
  refine fun _ h _ => h.of_counts ⟨?_, ?_, fun k => ?_⟩ ?_
  · rw [State.expireEpoch_eq]
  · rw [State.expireEpoch_eq]
  · rw [State.expireEpoch_ring]
    unfold Ring.expire
    dsimp only
    split <;> rfl
  · rw [State.expireEpoch_eq]
    exact List.length_map _

theorem State.completeRead_balances (s : State) (e : ReadEntry) (dropped : Bool) :
    s.Balances (s.completeRead e dropped) := by
  unfold State.completeRead
  split <;> exact .of_same rfl rfl rfl rfl

theorem State.completeRetirementWrite_balances (s : State) (r : Retirement) :
    s.Balances (s.completeRetirementWrite r) := fun store h unsaturated =>
  State.completeRetirement_balanceOk (s := { s.freeChannel with
    dram := s.dram.store r.cell (.full r.data), dcc.inHand := none }) store.1 h r.slot unsaturated

theorem State.sendResponse_balances (s : State) (r : Response) : s.Balances (s.sendResponse r) := by
  intro store h unsaturated
  have freed : (s.freeResponse r).StoreOk :=
    ⟨store.1, store.2.1, fun q hq => store.2.2 q (List.mem_filter.mp hq).1⟩
  unfold State.sendResponse at unsaturated ⊢
  split at unsaturated
  · exact State.sendClaim_balanceOk freed h _ unsaturated
  · exact h

theorem execResponseSent_balances (e : execResponseSent s = .next t) : s.Balances t := by
  unfold execResponseSent at e
  split at e
  · cases e; exact .refl s
  · cases e; exact .refl s
  · split at e <;> cases e
    · exact (s.sendResponse_balances _).settle
    · exact .settle (.of_same rfl rfl rfl rfl)

theorem execCreditFrameSent_balances (e : execCreditFrameSent s = .next t) : s.Balances t := by
  unfold execCreditFrameSent at e
  split at e <;> cases e
  · exact .refl s
  · exact .settle (.of_same rfl rfl rfl rfl)
  · exact .refl s

theorem execReadCompletion_balances (e : execReadCompletion s = .next t) : s.Balances t := by
  unfold execReadCompletion at e
  split at e <;> cases e
  · exact (s.completeRead_balances _ _).settle
  all_goals exact .refl s

theorem execWriteCompletion_balances (e : execWriteCompletion s = .next t) : s.Balances t := by
  unfold execWriteCompletion at e
  split at e <;> cases e
  · exact .settle (.of_same rfl rfl rfl rfl)
  all_goals exact .refl s

theorem execRetirementCompletion_balances (e : execRetirementCompletion s = .next t) : s.Balances t := by
  unfold execRetirementCompletion at e
  split at e <;> cases e
  · exact (s.completeRetirementWrite_balances _).settle
  all_goals exact .refl s

theorem execRefreshCompletion_balances (e : execRefreshCompletion s = .next t) : s.Balances t := by
  unfold execRefreshCompletion at e
  split at e <;> cases e
  · exact .settle (.of_same rfl rfl rfl rfl)
  all_goals exact .refl s

/-- Every command that takes no request keeps the balance. -/
theorem exec_balances {c : Instr} (e : exec c s = .next t) (idle : ¬TakesHead c) : s.Balances t := by
  cases c with
  | powerOnReset cause =>
    cases e
    obtain ⟨-, -, -, -, -, -, -, -, -, -, -, balance⟩ := resetMeetsTheInvariants
    exact fun _ _ _ => balance.of_counts (.of_rings rfl rfl rfl) rfl
  | rstnRise | trainingFailure => cases e; exact .ite fun _ => .of_same rfl rfl rfl rfl
  | endOfInit | trainingSuccess | quietTimerExpiry | wakingEnd =>
    cases e; exact .ite fun _ => .settle (.of_same rfl rfl rfl rfl)
  | laneLock => cases e; exact .settle (.of_same rfl rfl rfl rfl)
  | laneLockLoss lane =>
    cases e
    have lost := State.linkDown_balances { s with clp.lanes := clearLane s.clp.lanes lane }
    exact .settle fun store h => lost store h
  | linkReset =>
    cases e
    split
    · exact .refl s
    · exact s.linkDown_balances.settle
  | requestFrameArrival frame => cases e; exact .ite fun _ => (s.receiveFrame_balances frame).settle
  | epochExpiry => cases e; exact .ite fun _ => s.expireEpoch_balances.settle
  | refreshTimerExpiry => cases e; exact .ite fun _ => s.expireRefresh_balances.settle
  | readCompletion => exact execReadCompletion_balances e
  | writeCompletion => exact execWriteCompletion_balances e
  | retirementCompletion => exact execRetirementCompletion_balances e
  | refreshCompletion => exact execRefreshCompletion_balances e
  | responseSent => exact execResponseSent_balances e
  | creditFrameSent => exact execCreditFrameSent_balances e
  | pulseEnd => cases e; exact .of_same rfl rfl rfl rfl
  | _ => exact absurd (by decide) idle

/-- A command that takes the head is a take of it under some test (log entry 1). -/
theorem exec_takesHead {c : Instr} (h : TakesHead c) (s : State) : ∃ named, exec c s = .next (s.takeIf named) := by
  simp only [TakesHead, List.mem_cons, List.not_mem_nil, or_false] at h
  rcases h with rfl | rfl | rfl | rfl | rfl | rfl | rfl | rfl | rfl | rfl | rfl | rfl | rfl <;> exact ⟨_, rfl⟩

/-- The head waits, or it is taken (R144). -/
theorem State.takeIf_cases (s : State) (named : Bool) :
    s.takeIf named = s ∨ ∃ r rest u, s.rfe.rq = r :: rest ∧ (s.popHead rest).takeRequest r = some u ∧
      s.takeIf named = u.settle := by
  unfold State.takeIf
  split
  · cases head : s.rfe.rq with
    | nil => unfold State.takeHead; rw [head]; exact .inl rfl
    | cons r rest =>
      rw [State.takeHead_cons head]
      cases taken : (s.popHead rest).takeRequest r with
      | none => exact .inl rfl
      | some u => exact .inr ⟨r, rest, u, rfl, taken, rfl⟩
  · exact .inl rfl

/-- A head without a counter-clear word of 1 has none among its words. -/
theorem State.noClear_of_head {r : Request} {rest : List Request} (head : s.rfe.rq = r :: rest)
    (h : s.headCarries isCounterClearWord = false) :
    ∀ x ∈ (s.popHead rest).controlWords r, isCounterClearWord x.1 x.2 = false := by
  unfold State.headCarries at h
  rw [head] at h
  intro x hx
  simpa using List.any_eq_false.mp h x hx

/-- The take of the head keeps the balance, unless the head carries a counter-clear word of 1 and leaves the queue. -/
theorem State.takeIf_balances (s : State) (named : Bool)
    (clear : s.headCarries isCounterClearWord = true → (s.takeIf named).rfe.rq = s.rfe.rq) :
    s.Balances (s.takeIf named) := by
  rcases s.takeIf_cases named with e | ⟨r, rest, u, head, taken, e⟩ <;> rw [e] at clear ⊢
  · exact .refl s
  have taken := State.takeRequest_taken taken
  have left : u.settle.rfe.rq ≠ s.rfe.rq := by
    rw [u.settle_rq, taken.rq, head]
    exact (List.cons_ne_self r rest).symm
  have noClear := State.noClear_of_head head (Bool.not_eq_true _ ▸ mt clear left)
  refine .settle fun store h unsaturated => taken.balanceOk ?_ ?_ unsaturated noClear
  · exact store
  · exact h

end

/-- Settles O54: a command that takes the head clears no counter, since a head that carries the word stays, and no other
command has a counter-clear word to decode. -/
theorem storeCountersBalance : Obligations.StoreCountersBalance := by
  intro s t store balance unsaturated e clear
  unfold step at e
  split at e
  · cases e; exact balance
  rename_i c rest pending
  rw [pending] at clear
  let waiting : State := { s with pending := rest }
  have balances : waiting.Balances t := by
    by_cases takes : TakesHead c
    · obtain ⟨named, run⟩ := exec_takesHead takes waiting
      obtain rfl : waiting.takeIf named = t := Host.Outcome.next.inj (run.symm.trans e)
      exact waiting.takeIf_balances named (clear c rfl takes)
    · exact exec_balances e takes
  exact balances store balance unsaturated

end Sys2Proof.Machine
end

section
/-! PROOFS. The retirement of a slot, from its choice to its completion, and the held counts of the rings. Settles O38,
O44 and O60. -/

namespace Sys2Proof.Machine

/-! ### The held counts of the rings (R122) -/

/-- One slot is held for one ring. -/
theorem sum_ring_eq (k : Fin 64) : ((List.finRange 64).map (fun j => if k == j then 1 else 0)).sum = 1 := by
  revert k; decide

/-- Settles O60, by induction on the slots: each adds one to the held count of its ring, and one to fill. -/
theorem heldCountsMakeTheFill : Obligations.HeldCountsMakeTheFill := by
  intro h
  unfold HoldStore.heldFor HoldStore.fill
  induction h.slots with
  | nil => simp
  | cons x xs ih =>
    have hd : ∀ j : Fin 64, ((x :: xs).filter (fun y => y.ring == j)).length =
        (if x.ring == j then 1 else 0) + (xs.filter (fun y => y.ring == j)).length := fun j => by
      rw [List.filter_cons]
      split <;> simp [Nat.add_comm]
    simp only [hd, List.sum_map_add, sum_ring_eq, ih, List.length_cons]
    omega

/-! ### The completion of a retirement (R113, R118, R131) -/

theorem execRetirementCompletion_of_inFlight {s : State} {r : Retirement} {ns : Nat}
    (h : s.dcc.inFlight = some { op := .retirement r, duration := ns }) :
    exec .retirementCompletion s = .next (s.completeRetirementWrite r).settle := by
  have ho : s.operation? = some (.retirement r) := by simp [State.operation?, h]
  change execRetirementCompletion s = _
  simp only [execRetirementCompletion, ho]

/-- Settles O38: the completion frees a RETIRING slot, which can end a flush, and returns a RETIRING_WRITTEN one. -/
theorem retirementCompletionFreesOrReturnsTheSlot : Obligations.RetirementCompletionFreesOrReturnsTheSlot := by
  intro s r ns x hfly hslot done others freed
  rw [execRetirementCompletion_of_inFlight hfly, State.completeRetirementWrite]
  have hdone : done.hst.slot? r.slot = some x := hslot
  have hfreed : ({ done with counters.retired := bump done.counters.retired 1 } : State).freeSlot r.slot = freed := rfl
  change (_ → _ → Host.Outcome.next (done.completeRetirement r.slot).settle = _) ∧
    (_ → _ → _ → Host.Outcome.next (done.completeRetirement r.slot).settle = _) ∧
    (_ → Host.Outcome.next (done.completeRetirement r.slot).settle = _)
  rcases State.completeRetirement_cases hdone with ⟨hx, he⟩ | ⟨hx, he⟩ | ⟨hx, -⟩
  · rw [he, hfreed]
    refine ⟨fun _ stay => ?_, fun _ flush last => ?_, fun h => by simp [hx] at h⟩
    · rcases freed.checkFlush_cases with ⟨hf, hs, -⟩ | ⟨-, hc⟩
      · exact absurd stay (by simp [show s.hst.flush = true from hf, show others = [] from hs])
      · rw [hc]
    · rcases freed.checkFlush_cases with ⟨-, -, hc⟩ | ⟨hn, -⟩
      · rw [hc]
      · exact absurd hn (by simp [show freed.hst.flush = true from flush, show freed.hst.slots = [] from last])
  · exact ⟨fun h => by simp [hx] at h, fun h => by simp [hx] at h, fun _ => by rw [he]; rfl⟩
  · exact ⟨fun h => by simp [hx] at h, fun h => by simp [hx] at h, fun h => by simp [hx] at h⟩

/-! ### The urgency and the choice of a retirement (R110, R112, R130, R131) -/

theorem HoldStore.atHighMark_iff {h : HoldStore} :
    h.atHighMark = true ↔ max h.highMark h.lowMark ≤ h.slots.length :=
  decide_eq_true_iff

theorem HoldStore.urgency_of_none {h : HoldStore} (e : h.oldestHeld? = none) (now : Epoch) :
    h.urgency now = .none := by
  simp only [HoldStore.urgency, e]

theorem HoldStore.urgency_of_some {h : HoldStore} {oldest : Slot} (e : h.oldestHeld? = some oldest) (now : Epoch) :
    h.urgency now =
      if max h.highMark h.lowMark ≤ h.slots.length ∨ h.flush = true then .must
      else if h.lowMark ≤ h.slots.length ∨ h.ageLimit < (now - oldest.admitted).toNat then .need
      else .may := by
  simp only [HoldStore.urgency, e]
  exact if_congr (by rw [Bool.or_eq_true, HoldStore.atHighMark_iff]) rfl rfl

/-- The higher of two urgencies has the higher of their places in the order of R110. -/
theorem Urgency.idxOf_higher (a b : Urgency) :
    [Urgency.none, .may, .need, .must].idxOf (a.higher b) =
      max ([Urgency.none, .may, .need, .must].idxOf a) ([Urgency.none, .may, .need, .must].idxOf b) := by
  cases a <;> cases b <;> rfl

/-- The operation performed for a retirement whose cell has no read and no write queued is its own write. -/
theorem Channel.beginRetirement_alone {c : Channel} {r : Retirement} (reads : ∀ e ∈ c.readQ, e.cell ≠ r.cell)
    (writes : ∀ w ∈ c.writeQ, w.cell ≠ r.cell) : c.beginRetirement r = c.accessing (.retirement r) r.cell := by
  have hr : c.readQ.find? (fun e => e.cell == r.cell) = none := by simpa using reads
  have hw : c.writeQ.find? (fun e => e.cell == r.cell) = none := by simpa using writes
  simp only [Channel.beginRetirement, hr, hw, Channel.access_eq_accessing]

/-- The operation performed for a retirement is the oldest read of its cell, where that is older than every write of the
cell. -/
theorem Channel.beginRetirement_read {c : Channel} {r : Retirement} {e : ReadEntry}
    (sorted : c.readQ.Pairwise (fun a b => a.seq < b.seq)) (he : e ∈ c.readQ) (hc : e.cell = r.cell)
    (oldest : ∀ x ∈ c.readQ, x.cell = r.cell → e.seq ≤ x.seq) (ahead : ∀ w ∈ c.writeQ, w.cell = r.cell → e.seq < w.seq) :
    c.beginRetirement r = c.beginRead e := by
  have hr : c.readQ.find? (fun e => e.cell == r.cell) = some e :=
    find?_eq_least sorted he (by simpa using hc) (fun x hx ht => oldest x hx (by simpa using ht))
  cases hw : c.writeQ.find? (fun e => e.cell == r.cell) with
  | none => simp only [Channel.beginRetirement, hr, hw]
  | some w =>
    have hlt := ahead w (List.mem_of_find?_eq_some hw) (by simpa using List.find?_some hw)
    simp only [Channel.beginRetirement, hr, hw, if_pos hlt]

/-- The operation performed for a retirement is the oldest write of its cell, where that is older than every read of the
cell. -/
theorem Channel.beginRetirement_write {c : Channel} {r : Retirement} {w : WriteEntry}
    (sorted : c.writeQ.Pairwise (fun a b => a.seq < b.seq)) (hw : w ∈ c.writeQ) (hc : w.cell = r.cell)
    (oldest : ∀ x ∈ c.writeQ, x.cell = r.cell → w.seq ≤ x.seq) (ahead : ∀ e ∈ c.readQ, e.cell = r.cell → w.seq < e.seq) :
    c.beginRetirement r = c.beginWrite w := by
  have hw : c.writeQ.find? (fun e => e.cell == r.cell) = some w :=
    find?_eq_least sorted hw (by simpa using hc) (fun x hx ht => oldest x hx (by simpa using ht))
  cases hr : c.readQ.find? (fun e => e.cell == r.cell) with
  | none => simp only [Channel.beginRetirement, hr, hw]
  | some e =>
    have hlt := ahead e (List.mem_of_find?_eq_some hr) (by simpa using List.find?_some hr)
    simp only [Channel.beginRetirement, hr, hw, if_neg (Nat.not_lt.mpr hlt.le)]

/-- Settles O44: the answers of the store from its oldest HELD slot, and the operation from the order of the queues. -/
theorem retirementTakesTheOldestHeldSlot : Obligations.RetirementTakesTheOldestHeldSlot := by
  refine ⟨fun s => ?_, fun c r ⟨reads, writes, _⟩ =>
    ⟨Channel.beginRetirement_alone, fun e he => Channel.beginRetirement_read reads he,
      fun w hw => Channel.beginRetirement_write writes hw⟩⟩
  intro held fill level
  have hold : s.hst.oldestHeld? = held.head? := by
    simp [held, HoldStore.oldestHeld?_eq_head?, Bool.beq_eq_decide_eq]
  refine ⟨fun h => ?_, fun oldest others h => ?_, fun h => ?_, fun r h => ⟨?_, fun u => ?_⟩,
    fun u oldest others hand h => ?_⟩
  · exact HoldStore.urgency_of_none (by rw [hold, h]; rfl) _
  · exact HoldStore.urgency_of_some (by rw [hold, h]; rfl) _
  · simp only [State.retirementRank, h]
  · simp only [State.retirementRank, h]
    exact Urgency.idxOf_higher _ _
  · simp only [State.retire, h]
  · have ho : s.hst.oldestHeld? = some oldest := by rw [hold, h]; rfl
    simp only [State.retire, hand, ho]
    rfl

end Sys2Proof.Machine
end

section
/-! PROOFS. The words of the device record that act at the take. Settles O25. -/

namespace Sys2Proof.Machine

/-- The take of a WORD_WRITE of the device record, under a command whose kind its word is (R158, R159, R160). -/
theorem State.takeIf_deviceWord {s : State} {w : Nat} {d : List Byte} {rest : List Request}
    {test : ControlWord → List Byte → Bool} (room : s.dcc.writeQ.length < 32)
    (head : s.rfe.rq = .wordWrite (s.capacity.cells - 32) w d :: rest) (kind : test (deviceWord w) d = true) :
    s.takeIf (s.headCarries test) = State.settle
      ((s.queuedWrite rest (s.capacity.cells - 32) (.partialWord w d)).writeControl (deviceWord w) d) := by
  have carries := State.headCarries_controlWord (n := 0) (by omega) head test
  have take := State.takeHead_controlWord (n := 0) (by omega) room head
  rw [State.takeIf, carries, if_pos (show test (controlWord 0 w) d = true from kind), take]
  rfl

/-- Words 3 to 6 of the device record are those of the four alert lines (R178). -/
theorem deviceWord_alertLine (n : Fin 4) : deviceWord (3 + n.val) = .alertLine n := by
  revert n; decide

/-- The mode field, by its place in the table of modes (R178). -/
theorem AlertMode.ofBits_mod (n : Nat) :
    AlertMode.ofBits (n % 4) = [AlertMode.level, .inverted, .pulseHigh, .pulseLow].getD (n % 4) .level := by
  have table : ∀ i : Fin 4, AlertMode.ofBits i = [AlertMode.level, .inverted, .pulseHigh, .pulseLow].getD i .level := by
    decide
  exact table ⟨n % 4, by omega⟩

/-- The width field, by its place in the table of widths (R178). -/
theorem PulseWidth.ofBits_mod (n : Nat) :
    PulseWidth.ofBits (n % 4) = [PulseWidth.us1, .us10, .us100, .ms1].getD (n % 4) .us1 := by
  have table : ∀ i : Fin 4, PulseWidth.ofBits i = [PulseWidth.us1, .us10, .us100, .ms1].getD i .us1 := by decide
  exact table ⟨n % 4, by omega⟩

/-- The store settings with their clamps, and STORE_MUST where fill stood below the high mark in use and now does not
(R99, R111). -/
theorem State.writeStoreSettings_eq (d : List Byte) (s : State) :
    let low := max 1 (min 2048 (leField d 2 2))
    let high := min 2048 (leField d 4 2)
    s.writeStoreSettings d = { s with
      hst := { s.hst with holdEnable := leField d 0 1 != 0, lowMark := low, highMark := high,
                          ageLimit := max 1 (min 255 (leField d 6 2)) }
      alerts :=
        if s.hst.slots.length < max s.hst.highMark s.hst.lowMark ∧ max high low ≤ s.hst.slots.length then
          s.alerts.map (AlertLine.raise .storeMust)
        else s.alerts } := by
  intro low high
  rw [State.writeStoreSettings, State.raiseStoreMust_eq]
  have crossed : (!s.hst.atHighMark &&
      (s.hst.configure (leField d 0 1) (leField d 2 2) (leField d 4 2) (leField d 6 2)).atHighMark) = true ↔
      s.hst.slots.length < max s.hst.highMark s.hst.lowMark ∧ max high low ≤ s.hst.slots.length := by
    rw [Bool.and_eq_true, HoldStore.atHighMark_iff, Bool.not_eq_true', ← Bool.not_eq_true, HoldStore.atHighMark_iff,
      Nat.not_le]
    rfl
  dsimp only
  rw [if_congr crossed rfl rfl]
  rfl

/-- The quiet delay with its clamp, the quiet timer loaded with it, and the refresh interval staged (R133, R136). -/
theorem State.writeRefreshQuiet_eq (d : List Byte) (s : State) : s.writeRefreshQuiet d = { s with
    swu.stagedRefresh := leField d 0 2
    dcc.quietDelay := min 255 (leField d 2 2)
    dcc.quietTimer := if leField d 2 2 = 0 then .stopped else .running (min 255 (leField d 2 2)) } := by
  have load : loadQuiet (min 255 (leField d 2 2)) =
      if leField d 2 2 = 0 then .stopped else .running (min 255 (leField d 2 2)) :=
    if_congr (by omega) rfl rfl
  rw [State.writeRefreshQuiet, load]

/-- The mode, the width and the mask of a line (R177, R178). -/
theorem State.writeAlertLine_eq (n : Fin 4) (d : List Byte) (s : State) : s.writeAlertLine n d = { s with
    alerts := s.alerts.set n
      { s.alerts[n] with
        mode := [AlertMode.level, .inverted, .pulseHigh, .pulseLow].getD (leField d 0 1 % 4) .level
        width := [PulseWidth.us1, .us10, .us100, .ms1].getD (leField d 1 1 % 4) .us1
        mask := BitVec.ofNat 7 (leField d 2 1) } } := by
  rw [State.writeAlertLine, AlertMode.ofBits_mod, PulseWidth.ofBits_mod]
  rfl

/-- Settles O25: the take queues the write and decodes its word. -/
theorem deviceSettingsActAtTheTake : Obligations.DeviceSettingsActAtTheTake := by
  intro s d rest room cell low high
  refine ⟨fun head => ?_, fun c hc head => ?_, fun n head => ?_⟩
  · rw [exec, execStoreSettingsWrite, State.takeIf_deviceWord room head rfl]
    exact congrArg (fun t => Host.Outcome.next (State.settle t)) (State.writeStoreSettings_eq d _)
  · have take : exec c s = .next (State.settle
        ((s.queuedWrite rest cell (.partialWord 2 d)).writeRefreshQuiet d)) := by
      rcases hc with rfl | rfl
      · rw [exec, execQuietDelayWrite, State.takeIf_deviceWord room head rfl]; rfl
      · rw [exec, execSettingWrite, State.takeIf_deviceWord room head rfl]; rfl
    rw [take, State.writeRefreshQuiet_eq]
  · rw [exec, execAlertLineWrite,
      State.takeIf_deviceWord room head (by rw [deviceWord_alertLine]; rfl), deviceWord_alertLine]
    exact congrArg (fun t => Host.Outcome.next (State.settle t)) (State.writeAlertLine_eq n d _)

end Sys2Proof.Machine
end

section
/-! PROOFS. CELL_WRITE and WORD_WRITE of buffer cells and of the report window: admission and bypass, the overwrite of a
held cell, the plain writes. Settles O13, O14 and O15. -/

namespace Sys2Proof.Machine

/-! ### What tracking a write leaves -/

/-- The tracking of a write raises no STORE_MUST. -/
theorem State.trackWrite_storeMust (s : State) (k : Fin 64) (p : Nat) (sm : Option Summary) (l : Fin 4) :
    (s.trackWrite k p sm).alerts[l].flags.getLsbD 3 = s.alerts[l].flags.getLsbD 3 := by
  obtain ⟨-, -, -, flags⟩ := AlertLine.raise_frame (s.trackWrite_alerts k p sm).symm l
  exact flags 3 (by decide)

/-! ### Admission and bypass (R100 to R102, R111) -/

section
variable {s u : State} {k : Fin 64} {p cell : Nat} {data : List Byte}

/-- Q after the take is the one the statements call `occAfter`. -/
theorem State.takePositionWrite_occ (e : s.takePositionWrite k p cell data = some u) :
    (u.ring k).occ = (s.ring k).occAfter p := by
  rw [State.takePositionWrite_ring e]
  exact (s.ring k).moveWrite_occ p

/-- STORE_MUST after an admission: raised where it brings fill up to the high mark in use, and otherwise as it was. -/
theorem State.takePositionWrite_storeMust (e : s.takePositionWrite k p cell data = some u)
    (unheld : s.hst.lookup? cell = none) (admitted : s.WouldAdmit k p data) (l : Fin 4) :
    (s.hst.slots.length + 1 = max s.hst.highMark s.hst.lowMark → u.alerts[l].flags.getLsbD 3 = true) ∧
      (s.hst.slots.length + 1 ≠ max s.hst.highMark s.hst.lowMark →
        u.alerts[l].flags.getLsbD 3 = s.alerts[l].flags.getLsbD 3) := by
  obtain ⟨must, notMust⟩ := State.takePositionWrite_alerts e
  refine ⟨fun risen => ?_, fun stays => ?_⟩
  · rw [must ⟨unheld, admitted, risen⟩, Fin.getElem_fin, Vector.getElem_map, AlertLine.getLsbD_raise]
    exact Bool.or_true _
  · rw [notMust fun ⟨_, _, risen⟩ => stays risen]
    exact s.trackWrite_storeMust k p _ l

end

/-- Settles O13: an unheld cell leaves the admission and the bypass of the three outcomes of the take, and the test is made
on the ring as the tracking leaves it. -/
theorem positionWriteIsAdmittedOrBypassed : Obligations.PositionWriteIsAdmittedOrBypassed := by
  intro s cell data rest k p h unheld
  obtain ⟨u, hexec, take⟩ := h.takes
  have hnone : (s.popHead rest).hst.lookup? cell = none := HoldStore.lookup?_none.mpr unheld
  have keeps := (s.popHead rest).trackWrite_keeps k p (summaryOf data)
  obtain ⟨admitted, bypassed⟩ := (s.popHead rest).trackWrite_tallies k p (summaryOf data) k
  have occ : (u.ring k).occ = (s.ring k).occAfter p :=
    State.takePositionWrite_occ (s := s.popHead rest) take
  refine ⟨u, hexec, ?_⟩
  intro r v copies risen pass
  have test : pass ↔ s.WouldAdmit k p data := by
    change _ ∧ _ ∧ _ ∧ _ ∧ sojourn (u.ring k).occ _ < _ ∧ _ ↔ _
    rw [occ]
  refine ⟨test, fun passed => ?_, fun failed => ?_⟩
  · have would := test.mp passed
    rcases State.takePositionWrite_cases take with ⟨x, held, -⟩ | ⟨-, -, n, free, hu⟩ | ⟨-, refused, -⟩
    · exact absurd (held.symm.trans hnone) nofun
    · obtain ⟨below, unused⟩ := HoldStore.freeSlot?_spec free
      have hv : v = _ := (congrArg (fun t => State.ring t k) hu).trans (State.admitCell_ring_self _ k n cell data)
      refine ⟨n, below, unused, ?_, ?_, ?_, ?_, ?_, fun l => State.takePositionWrite_storeMust take hnone would l⟩
      · rw [hu, State.admitCell_eq, keeps.hst, keeps.sje]; rfl
      · rw [hu, State.admitCell_dcc, keeps.dcc]; rfl
      · rw [hu, State.admitCell_dcc, keeps.dcc]; rfl
      · rw [hv, admitted]; rfl
      · rw [hv]; exact bypassed
    · exact absurd would refused
  · rcases State.takePositionWrite_cases take with ⟨x, held, -⟩ | ⟨-, would, -⟩ | ⟨-, -, -, hu⟩
    · exact absurd (held.symm.trans hnone) nofun
    · exact absurd (test.mpr would) failed
    · have hv : v = _ := (congrArg (fun t => State.ring t k) hu).trans (State.ring_setRing_self _ k _)
      refine ⟨?_, ?_, ?_, ?_, fun l => ?_⟩
      · rw [hu]; exact congrArg HoldStore.slots keeps.hst
      · rw [hu, State.bypassed, State.setRing_dcc, keeps.dcc]; rfl
      · rw [hv]; exact admitted
      · rw [hv, bypassed]; rfl
      · rw [hu]; exact (s.popHead rest).trackWrite_storeMust k p _ l

/-! ### The overwrite of a held cell (R103, R104, R109) -/

/-- The state in which a CELL_WRITE finds its cell: its head has left the queue, and at a ring position the write has been
tracked (R148). -/
def State.trackedWrite (rest : List Request) (cell : Nat) (data : List Byte) (s : State) : State :=
  match s.ringClass cell with
  | .position k p => (s.popHead rest).trackWrite k p (summaryOf data)
  | .lead _ => s.popHead rest
  | .other => s.popHead rest

/-- What the tracking of a CELL_WRITE leaves, whether its cell is a ring position or not. -/
structure State.TracksWrite (cell : Nat) (s t : State) : Prop where
  keeps : ∃ k, State.TrackKeeps k s t
  plain : (∀ k p, s.ringClass cell ≠ .position k p) → t = s
  others : ∀ j, (∀ p, s.ringClass cell ≠ .position j p) → t.ring j = s.ring j
  counters : t.counters = { s.counters with evictions := t.counters.evictions }
  storeMust : ∀ l : Fin 4, t.alerts[l].flags.getLsbD 3 = s.alerts[l].flags.getLsbD 3
  tallies : ∀ j, (t.ring j).counters.admitted = (s.ring j).counters.admitted ∧
    (t.ring j).counters.bypassed = (s.ring j).counters.bypassed

theorem State.TracksWrite.refl (cell : Nat) (s : State) : s.TracksWrite cell s :=
  ⟨⟨0, rfl, rfl, rfl, rfl, rfl, rfl, rfl, rfl, rfl, rfl, rfl, fun _ _ => rfl⟩, fun _ => rfl, fun _ _ => rfl, rfl,
    fun _ => rfl, fun _ => ⟨rfl, rfl⟩⟩

theorem State.trackWrite_tracksWrite {s : State} {cell : Nat} {k : Fin 64} {p : Nat} (sm : Option Summary)
    (position : s.ringClass cell = .position k p) : s.TracksWrite cell (s.trackWrite k p sm) :=
  ⟨⟨k, s.trackWrite_keeps k p sm⟩, fun plain => absurd position (plain k p),
    fun j other => (s.trackWrite_keeps k p sm).ring j fun e => other p (e ▸ position),
    s.trackWrite_counters k p sm, s.trackWrite_storeMust k p sm, s.trackWrite_tallies k p sm⟩

section
variable (s : State) (rest : List Request) (cell : Nat) (data : List Byte)

theorem State.trackedWrite_tracksWrite : (s.popHead rest).TracksWrite cell (s.trackedWrite rest cell data) := by
  unfold State.trackedWrite
  split
  · exact State.trackWrite_tracksWrite _ (by assumption)
  · exact .refl cell _
  · exact .refl cell _

end

section
variable {s : State} {cell : Nat} {data : List Byte} {rest : List Request} {x : Slot}

/-- A CELL_WRITE to a held buffer cell is taken, and overwrites the slot (R103, R148). -/
theorem exec_cellWrite_held (head : s.rfe.rq = .cellWrite cell data :: rest) (buffer : s.cellClass cell = .buffer)
    (held : s.hst.lookup? cell = some x) :
    exec .cellWrite s = .next ((s.trackedWrite rest cell data).overwrite x data).settle := by
  have take : (s.popHead rest).takeCellWrite cell data = some ((s.trackedWrite rest cell data).overwrite x data) := by
    have plain : (s.popHead rest).takePlainWrite cell data = some ((s.popHead rest).overwrite x data) := by
      simp only [State.takePlainWrite, State.popHead_hst, held]
    unfold State.takeCellWrite State.trackedWrite
    rw [State.popHead_cellClass, buffer, State.popHead_ringClass]
    cases s.ringClass cell with
    | position k p =>
      have keeps := (s.popHead rest).trackWrite_keeps k p (summaryOf data)
      simp only [State.takePositionWrite, keeps.hst, State.popHead_hst, held]
    | lead _ => exact plain
    | other => exact plain
  rw [exec_cellWrite head, take, Option.elim_some]

/-- What the overwrite leaves of the part (`TakeKeeps`), from the state before the head left the queue. -/
theorem State.TracksWrite.takeKeeps_overwrite {t : State} (tracks : (s.popHead rest).TracksWrite cell t) :
    s.TakeKeeps rest (t.overwrite x data) := by
  obtain ⟨k, keeps⟩ := tracks.keeps
  have hst := t.overwrite_hst x data
  rw [keeps.hst] at hst
  have dcc : (t.overwrite x data).dcc = s.dcc := keeps.dcc
  have rq : t.rfe.rq = rest := by rw [keeps.rfe]; rfl
  exact ⟨keeps.rstnLow, keeps.capacity, keeps.sje, keeps.fanInWindow, keeps.swu, keeps.dram, keeps.pending, rq,
    keeps.clp, by rw [dcc], hst⟩

end

/-- Settles O14: the overwrite acts on the state that the tracking leaves, and the tracking leaves the store. -/
theorem heldCellIsOverwritten : Obligations.HeldCellIsOverwritten := by
  intro s cell data rest x head buffer held
  have tracks := s.trackedWrite_tracksWrite rest cell data
  refine ⟨_, exec_cellWrite_held head buffer held, tracks.takeKeeps_overwrite, ?_⟩
  revert tracks
  generalize s.trackedWrite rest cell data = t
  intro tracks
  obtain ⟨k, keeps⟩ := tracks.keeps
  have ready : t.rfe.ready = s.rfe.ready := by rw [keeps.rfe]; rfl
  have tags : t.rfe.tags = s.rfe.tags := by rw [keeps.rfe]; rfl
  have responses : t.rfe.responses = s.rfe.responses := by rw [keeps.rfe]; rfl
  have overwrites : t.counters.overwrites = s.counters.overwrites := by rw [tracks.counters]; rfl
  have slots : t.hst.slots = s.hst.slots := by rw [keeps.hst]; rfl
  have epoch : t.sje.epoch = s.sje.epoch := by rw [keeps.sje]; rfl
  refine ⟨keeps.dcc, ready, tags, ?_, tracks.others, fun plain => ?_, tracks.storeMust, tracks.tallies, ?_,
    fun young => ?_, fun away => ?_⟩
  · have counters := congrArg (fun c : DeviceCounters => { c with overwrites := bump t.counters.overwrites 1 })
      tracks.counters
    rw [← overwrites]
    exact counters
  · rw [tracks.plain plain]
    exact ⟨rfl, rfl, rfl⟩
  · rw [← responses]
    rfl
  · rw [State.overwrite_of_held _ _ young, ← slots, ← epoch]
    rfl
  · rw [State.overwrite_of_away _ _ away, ← slots]
    rfl

/-! ### Plain writes (R100, R105, R126, R148, R157) -/

section
variable {s : State} {cell w : Nat} {data : List Byte} {rest : List Request}

theorem SlotState.afterWrite_eq (y : SlotState) : y.afterWrite = if y = .held then .held else .retiringWritten := by
  cases y <;> rfl

theorem State.queueWrite_popHead (room : s.dcc.writeQ.length < 32) (v : WriteData) :
    (s.popHead rest).queueWrite cell v = some (s.queuedWrite rest cell v) :=
  State.queueWrite_eq_some.mpr ⟨room, rfl⟩

/-- A write to the report window is discarded (R157). -/
theorem exec_write_report (lo : s.capacity.cells - 128 ≤ cell) (hi : cell < s.capacity.cells - 32) :
    (s.rfe.rq = .cellWrite cell data :: rest → exec .cellWrite s = .next (State.settle (s.afterHead rest))) ∧
      (s.rfe.rq = .wordWrite cell w data :: rest →
        exec .wordWrite s = .next (State.settle (s.afterHead rest))) := by
  have report := State.cellClass_report lo hi
  rw [← State.popHead_eq_afterHead]
  refine ⟨fun head => ?_, fun head => ?_⟩
  · simp only [exec_cellWrite head, State.takeCellWrite, State.popHead_cellClass, report, Option.elim_some]
  · simp only [exec_wordWrite head, State.takeWordWrite, State.popHead_cellClass, report, Option.elim_some]

theorem exec_cellWrite_plain (buffer : s.cellClass cell = .buffer) (head : s.rfe.rq = .cellWrite cell data :: rest)
    (plain : ∀ k p, s.ringClass cell ≠ .position k p) (unheld : s.hst.lookup? cell = none)
    (room : s.dcc.writeQ.length < 32) :
    exec .cellWrite s = .next (State.settle (s.queuedWrite rest cell (.full data))) := by
  have take : (s.popHead rest).takeCellWrite cell data = some (s.queuedWrite rest cell (.full data)) := by
    rw [State.takeCellWrite_plain (s := s.popHead rest) buffer plain, State.takePlainWrite, State.popHead_hst, unheld]
    exact State.queueWrite_popHead room _
  rw [exec_cellWrite head, take, Option.elim_some]

theorem exec_wordWrite_unheld (buffer : s.cellClass cell = .buffer) (head : s.rfe.rq = .wordWrite cell w data :: rest)
    (unheld : s.hst.lookup? cell = none) (room : s.dcc.writeQ.length < 32) :
    exec .wordWrite s = .next (State.settle (s.queuedWrite rest cell (.partialWord w data))) := by
  have take : (s.popHead rest).takeWordWrite cell w data = some (s.queuedWrite rest cell (.partialWord w data)) := by
    rw [State.takeWordWrite, State.popHead_cellClass, buffer, State.popHead_hst, unheld]
    exact State.queueWrite_popHead room _
  rw [exec_wordWrite head, take, Option.elim_some]

theorem exec_wordWrite_held {x : Slot} (buffer : s.cellClass cell = .buffer)
    (head : s.rfe.rq = .wordWrite cell w data :: rest) (held : s.hst.lookup? cell = some x) :
    exec .wordWrite s = .next (State.settle ((s.popHead rest).mergeHeld x w data)) := by
  simp only [exec_wordWrite head, State.takeWordWrite, State.popHead_cellClass, buffer, State.popHead_hst, held,
    Option.elim_some]

end

/-- Settles O15, take by take. -/
theorem plainWritesAreQueuedMergedOrDiscarded : Obligations.PlainWritesAreQueuedMergedOrDiscarded := by
  intro s cell w data rest
  refine ⟨exec_write_report, exec_cellWrite_plain, exec_wordWrite_unheld, fun x buffer head held => ?_⟩
  rw [exec_wordWrite_held buffer head held, State.mergeHeld]
  simp only [SlotState.afterWrite_eq]
  rfl

end Sys2Proof.Machine
end

section
/-! PROOFS. CELL_READ and WORD_READ of buffer cells and of the control window: hits and misses. Settles O20 and O21. -/

namespace Sys2Proof.Machine

/-! ### The take of a read with a fresh tag (R144, R149, R157) -/

section
variable {s : State} {cell w : Nat} {tag : Tag} {rest : List Request}

/-- A CELL_READ with a fresh tag and an entry for it goes by the class of its cell. -/
theorem exec_cellRead_fresh (head : s.rfe.rq = .cellRead cell tag :: rest) (fresh : tag ∉ s.rfe.tags)
    (entry : s.rfe.responses.length < 64) :
    ∃ id, id < 64 ∧ (∀ r ∈ s.rfe.responses, r.id ≠ id) ∧
      (s.cellClass cell = .buffer → ∀ u, (s.popHead rest).takeBufferCellRead cell id tag = some u →
        exec .cellRead s = .next u.settle) ∧
      (∀ n, s.cellClass cell = .control n → ∀ u,
        (s.popHead rest).takeDramRead cell id tag .cell .plain false = some u → exec .cellRead s = .next u.settle) := by
  obtain ⟨id, hid⟩ := FrontEnd.freeEntry?_of_length (f := (s.popHead rest).rfe) entry
  obtain ⟨below, unused⟩ := FrontEnd.freeEntry?_spec hid
  have notIn : tag ∉ (s.popHead rest).rfe.tags := fresh
  refine ⟨id, below, unused, fun buffer u hu => ?_, fun n control u hu => ?_⟩
  · simp only [exec_cellRead head, State.takeCellRead, hid, if_neg notIn, State.popHead_cellClass, buffer, hu, Option.elim_some]
  · simp only [exec_cellRead head, State.takeCellRead, hid, if_neg notIn, State.popHead_cellClass, control, hu, Option.elim_some]

/-- A WORD_READ with a fresh tag and an entry for it goes by the class of its cell. -/
theorem exec_wordRead_fresh (head : s.rfe.rq = .wordRead cell w tag :: rest) (fresh : tag ∉ s.rfe.tags)
    (entry : s.rfe.responses.length < 64) :
    ∃ id, id < 64 ∧ (∀ r ∈ s.rfe.responses, r.id ≠ id) ∧
      (s.cellClass cell = .buffer → ∀ u,
        (s.popHead rest).takeBufferRead cell id tag (.word w) .plain false = some u →
        exec .wordRead s = .next u.settle) ∧
      (∀ n, s.cellClass cell = .control n → ∀ u,
        (s.popHead rest).takeDramRead cell id tag (.word w) .plain false = some u →
        exec .wordRead s = .next u.settle) := by
  obtain ⟨id, hid⟩ := FrontEnd.freeEntry?_of_length (f := (s.popHead rest).rfe) entry
  obtain ⟨below, unused⟩ := FrontEnd.freeEntry?_spec hid
  have notIn : tag ∉ (s.popHead rest).rfe.tags := fresh
  refine ⟨id, below, unused, fun buffer u hu => ?_, fun n control u hu => ?_⟩
  · simp only [exec_wordRead head, State.takeWordRead, hid, if_neg notIn, State.popHead_cellClass, buffer, hu, Option.elim_some]
  · simp only [exec_wordRead head, State.takeWordRead, hid, if_neg notIn, State.popHead_cellClass, control, hu, Option.elim_some]

end

/-! ### The state in which a CELL_READ finds its cell -/

/-- The state in which a CELL_READ finds its cell, and what its header lookup gave: its head has left the queue, and at a
ring position the read has been tracked (R149). -/
def State.trackedRead (rest : List Request) (cell : Nat) (s : State) : State × HeaderRead :=
  match s.ringClass cell with
  | .position k p => (s.popHead rest).trackRead k p
  | .lead _ => (s.popHead rest, .plain)
  | .other => (s.popHead rest, .plain)

/-- What the tracking of a CELL_READ leaves, whether its cell is a ring position or not. -/
structure State.TracksRead (cell : Nat) (s : State) (t : State × HeaderRead) : Prop where
  keeps : ∃ k, State.TrackKeeps k s t.1
  plain : (∀ k p, s.ringClass cell ≠ .position k p) → t = (s, .plain)
  others : ∀ j, (∀ p, s.ringClass cell ≠ .position j p) → t.1.ring j = s.ring j
  alerts : t.1.alerts = s.alerts
  counters : t.1.counters = s.counters

theorem State.TracksRead.refl (cell : Nat) (s : State) : s.TracksRead cell (s, .plain) :=
  ⟨⟨0, rfl, rfl, rfl, rfl, rfl, rfl, rfl, rfl, rfl, rfl, rfl, fun _ _ => rfl⟩, fun _ => rfl, fun _ _ => rfl, rfl, rfl⟩

theorem State.trackedRead_tracksRead (s : State) (rest : List Request) (cell : Nat) :
    (s.popHead rest).TracksRead cell (s.trackedRead rest cell) := by
  unfold State.trackedRead
  split
  · rename_i k p position
    have keeps := (s.popHead rest).trackRead_keeps k p
    obtain ⟨alerts, counters⟩ := (s.popHead rest).trackRead_alerts_counters k p
    exact ⟨⟨k, keeps⟩, fun plain => absurd position (plain k p),
      fun j other => keeps.ring j fun e => other p (e ▸ position), alerts, counters⟩
  · exact .refl cell _
  · exact .refl cell _

/-! ### Hits (R106, R107) -/

section
variable {s : State} {cell id : Nat} {tag : Tag} {rest : List Request} {slot : Slot}

theorem State.takeBufferRead_hit (held : s.hst.lookup? cell = some slot) (x : Extent) (h : HeaderRead) (boost : Bool) :
    s.takeBufferRead cell id tag x h boost = some (s.takeHit slot id tag x h) := by
  rw [State.takeBufferRead, held]

theorem State.takeBufferCellRead_hit (held : s.hst.lookup? cell = some slot) :
    (s.popHead rest).takeBufferCellRead cell id tag =
      some ((s.trackedRead rest cell).1.takeHit slot id tag .cell (s.trackedRead rest cell).2) := by
  obtain ⟨k, keeps⟩ := (s.trackedRead_tracksRead rest cell).keeps
  have found : (s.trackedRead rest cell).1.hst.lookup? cell = some slot := by rw [keeps.hst]; exact held
  unfold State.trackedRead at found ⊢
  unfold State.takeBufferCellRead
  rw [State.popHead_ringClass]
  revert found
  cases s.ringClass cell with
  | position k p => exact fun found => State.takeBufferRead_hit found _ _ _
  | lead k => exact fun found => State.takeBufferRead_hit found _ _ _
  | other => exact fun found => State.takeBufferRead_hit found _ _ _

/-- What a hit leaves of the part (`TakeKeeps`), from the state before the head left the queue. -/
theorem State.TracksRead.takeKeeps_hit {t : State × HeaderRead} (tracks : (s.popHead rest).TracksRead cell t)
    (h : HeaderRead) : s.TakeKeeps rest (t.1.takeHit slot id tag .cell h) := by
  obtain ⟨k, keeps⟩ := tracks.keeps
  have dcc : (t.1.takeHit slot id tag .cell h).dcc = s.dcc := keeps.dcc
  have hst : (t.1.takeHit slot id tag .cell h).hst = s.hst := keeps.hst
  have rq : t.1.rfe.rq = rest := by rw [keeps.rfe]; rfl
  exact ⟨keeps.rstnLow, keeps.capacity, keeps.sje, keeps.fanInWindow, keeps.swu, keeps.dram, keeps.pending, rq,
    keeps.clp, by rw [dcc], by rw [hst]⟩

end

/-- Settles O20: a hit adds its READY entry to the state that the tracking leaves. -/
theorem hitsCopyTheSlot : Obligations.HitsCopyTheSlot := by
  intro s cell w tag rest x buffer held fresh entry
  refine ⟨fun head => ?_, fun head => ?_⟩
  · obtain ⟨id, below, unused, taken, -⟩ := exec_cellRead_fresh head fresh entry
    have hexec := taken buffer _ (State.takeBufferCellRead_hit held)
    have tracks := s.trackedRead_tracksRead rest cell
    revert hexec tracks
    generalize s.trackedRead rest cell = t
    intro hexec tracks
    obtain ⟨k, keeps⟩ := tracks.keeps
    have responses : t.1.rfe.responses = s.rfe.responses := by rw [keeps.rfe]; rfl
    have ready : t.1.rfe.ready = s.rfe.ready := by rw [keeps.rfe]; rfl
    have tags : t.1.rfe.tags = s.rfe.tags := by rw [keeps.rfe]; rfl
    have counters : t.1.counters = s.counters := tracks.counters
    refine ⟨_, { id := id, state := .ready, tag := tag, extent := .cell, status := .ok,
                 data := rewritten t.2.header x.data, decision := t.2.decision, header := t.2.header,
                 claim := some x.num }, hexec, tracks.takeKeeps_hit t.2, keeps.dcc, keeps.hst, tracks.alerts, ?_,
      tracks.others, fun plain => ?_, ?_, ?_, ?_, below, unused, rfl, rfl, rfl, rfl, rfl, rfl⟩
    · rw [← counters]; rfl
    · rw [tracks.plain plain]; exact ⟨rfl, rfl, rfl⟩
    · rw [← responses]; rfl
    · rw [← ready]; rfl
    · rw [← tags]; rfl
  · obtain ⟨id, below, unused, taken, -⟩ := exec_wordRead_fresh head fresh entry
    exact ⟨id, below, unused, taken buffer _ (State.takeBufferRead_hit (s := s.popHead rest) held _ _ _)⟩

/-! ### Misses and reads of the control window (R106, R107, R125, R157) -/

section
variable {s : State} {cell id : Nat} {tag : Tag} {rest : List Request} {x : Extent}

/-- A read that waits for DRAM joins the read queue with its entry WAITING (R125, R149). -/
theorem State.takeDramRead_of_room (room : s.dcc.readQ.length < 32) (h : HeaderRead) (boost : Bool) :
    s.takeDramRead cell id tag x h boost =
      some ((s.addResponse (waitingResponse id tag x h)).withRead cell x id boost) :=
  State.queueRead_eq_some.mpr ⟨room, rfl⟩

/-- A miss is counted, and waits for DRAM (R106, R107). -/
theorem State.takeBufferRead_miss (unheld : s.hst.lookup? cell = none) (room : s.dcc.readQ.length < 32) (h : HeaderRead)
    (boost : Bool) :
    s.takeBufferRead cell id tag x h boost =
      some (({ s with counters.misses := bump s.counters.misses 1 }.addResponse
        (waitingResponse id tag x h)).withRead cell x id boost) := by
  rw [State.takeBufferRead, unheld]
  exact State.takeDramRead_of_room (s := { s with counters.misses := bump s.counters.misses 1 }) room h boost

theorem State.takeBufferCellRead_position {k : Fin 64} {p : Nat} (position : s.ringClass cell = .position k p) :
    s.takeBufferCellRead cell id tag = (s.trackRead k p).1.takeBufferRead cell id tag .cell (s.trackRead k p).2
      ((s.ring k).state == .incast) := by
  rw [State.takeBufferCellRead, position]

end

/-- Settles O21: a miss is counted and joins the read queue from the state that the tracking leaves, and a read of the
control window joins it from the state after its head. -/
theorem missesJoinTheReadQueue : Obligations.MissesJoinTheReadQueue := by
  intro s cell w tag rest fresh entry room
  refine ⟨fun k p h unheld => ?_, fun buffer unheld => ⟨fun head plain => ?_, fun head => ?_⟩,
    fun n control => ⟨fun head => ?_, fun head => ?_⟩⟩
  · obtain ⟨head, buffer, position, -⟩ := h
    obtain ⟨id, below, unused, taken, -⟩ := exec_cellRead_fresh head fresh entry
    have keeps := (s.popHead rest).trackRead_keeps k p
    have counters : ((s.popHead rest).trackRead k p).1.counters = s.counters :=
      ((s.popHead rest).trackRead_alerts_counters k p).2
    have responses : ((s.popHead rest).trackRead k p).1.rfe.responses = s.rfe.responses := by rw [keeps.rfe]; rfl
    have ready : ((s.popHead rest).trackRead k p).1.rfe.ready = s.rfe.ready := by rw [keeps.rfe]; rfl
    have tags : ((s.popHead rest).trackRead k p).1.rfe.tags = s.rfe.tags := by rw [keeps.rfe]; rfl
    have queue : ((s.popHead rest).trackRead k p).1.dcc = s.dcc := keeps.dcc
    have take := (State.takeBufferCellRead_position (s := s.popHead rest) (id := id) (tag := tag) position).trans
      (State.takeBufferRead_miss (by rw [keeps.hst]; exact unheld) (by rw [keeps.dcc]; exact room) _ _)
    refine ⟨_, waitingResponse id tag .cell ((s.popHead rest).trackRead k p).2, taken buffer _ take, ?_, ?_, ?_, ready, ?_,
      below, unused, rfl, rfl, rfl, rfl, rfl, ?_⟩
    · exact State.ReadEnds.takeKeeps (k := k) (p := p) (tag := tag) (h := ((s.popHead rest).trackRead k p).2)
        ⟨rfl, rfl, rfl, rfl, rfl, rfl, rfl, rfl, rfl, rfl, rfl, rfl, rfl, rfl, rfl, rfl, rfl, rfl, rfl⟩
    · rw [← counters]; rfl
    · rw [← responses]; rfl
    · rw [← tags]; rfl
    · rw [← queue]; rfl
  · obtain ⟨id, below, unused, taken, -⟩ := exec_cellRead_fresh head fresh entry
    exact ⟨id, below, unused, taken buffer _ ((State.takeBufferCellRead_plain (s := s.popHead rest) plain).trans
      (State.takeBufferRead_miss (s := s.popHead rest) unheld room _ _))⟩
  · obtain ⟨id, below, unused, taken, -⟩ := exec_wordRead_fresh head fresh entry
    exact ⟨id, below, unused, taken buffer _ (State.takeBufferRead_miss (s := s.popHead rest) unheld room _ _)⟩
  · obtain ⟨id, below, unused, -, taken⟩ := exec_cellRead_fresh head fresh entry
    exact ⟨id, below, unused, taken n control _ (State.takeDramRead_of_room (s := s.popHead rest) room _ _)⟩
  · obtain ⟨id, below, unused, -, taken⟩ := exec_wordRead_fresh head fresh entry
    exact ⟨id, below, unused, taken n control _ (State.takeDramRead_of_room (s := s.popHead rest) room _ _)⟩

end Sys2Proof.Machine
end

section
/-! PROOFS. The array keeps its canonical form: no command but the completions of writes and retirements and a power-on
reset moves it, and each of these moves it by writes. Settles O46. -/

namespace Sys2Proof.Machine

section
variable {s t : State}

/-- What the store does with the slot at the end of a retirement leaves the array (R113). -/
theorem State.completeRetirementWrite_dram (s : State) (r : Retirement) :
    (s.completeRetirementWrite r).dram = s.dram.store r.cell (.full r.data) :=
  (State.completeRetirement_leaves (k := 0) r.slot _).dram

theorem execWriteCompletion_wf (e : execWriteCompletion s = .next t) (h : s.dram.mem.wf) : t.dram.mem.wf := by
  unfold execWriteCompletion at e
  split at e <;> cases e
  · rw [State.settle_dram]
    exact Dram.store_wf h _ _
  all_goals exact h

theorem execRetirementCompletion_wf (e : execRetirementCompletion s = .next t) (h : s.dram.mem.wf) : t.dram.mem.wf := by
  unfold execRetirementCompletion at e
  split at e <;> cases e
  · rw [State.settle_dram, State.completeRetirementWrite_dram]
    exact Dram.store_wf h _ _
  all_goals exact h

/-- Every command keeps the array's canonical form (R123). -/
theorem exec_wf {c : Instr} (e : exec c s = .next t) (h : s.dram.mem.wf) : t.dram.mem.wf := by
  cases c with
  | powerOnReset cause => cases e; exact Dram.powerOn_wf h _ cause
  | writeCompletion => exact execWriteCompletion_wf e h
  | retirementCompletion => exact execRetirementCompletion_wf e h
  | _ =>
    rw [(exec_movesOnlyItsOwn e nofun).dram nofun nofun]
    exact h

end

/-- Settles O46: a step runs the command at the front of the queue, or idles. -/
theorem memoryStaysCanonical : Obligations.MemoryStaysCanonical := by
  intro s t h e
  unfold step at e
  split at e
  · cases e; exact h
  · exact exec_wf e h

end Sys2Proof.Machine
end

section
/-! PROOFS. Every step keeps tags, entries, queued reads, the frame under way and the take order in step. Each
state of a response entry has a list that names the entries in it: the ready order, the targets of the reads, and the
transmitter's frame. An event adds an entry, moves one from one list to another, or takes one out. Settles O50. -/

namespace Sys2Proof.Machine

/-! ### The entries in one state -/

/-- An entry of this number is in this state (R149). -/
def HasEntry (rs : List Response) (n : Nat) (x : EntryState) : Prop := ∃ r ∈ rs, r.id = n ∧ r.state = x

/-- The list names the entries in this state, once each. -/
structure Names (rs : List Response) (x : EntryState) (l : List Nat) : Prop where
  nodup : l.Nodup
  mem : ∀ n, n ∈ l ↔ HasEntry rs n x

section
variable {rs qs : List Response} {x y : EntryState} {l k : List Nat} {n : Nat}

theorem Names.perm (h : Names rs x l) (p : k.Perm l) : Names rs x k :=
  ⟨p.nodup_iff.mpr h.nodup, fun m => p.mem_iff.trans (h.mem m)⟩

/-- Entries change, and none of their numbers and states does. -/
theorem Names.of_iff (h : Names rs x l) (has : ∀ m, HasEntry qs m x ↔ HasEntry rs m x) : Names qs x l :=
  ⟨h.nodup, fun m => (h.mem m).trans (has m).symm⟩

/-- The entry `n` leaves a state. -/
theorem Names.without (h : Names rs x l) (has : ∀ m, HasEntry qs m x ↔ HasEntry rs m x ∧ m ≠ n) (nodup : k.Nodup)
    (mem : ∀ m, m ∈ k ↔ m ∈ l ∧ m ≠ n) : Names qs x k :=
  ⟨nodup, fun m => by rw [mem, has, h.mem]⟩

/-- The entry `n` comes into a state. -/
theorem Names.concat (h : Names rs x l) (has : ∀ m, HasEntry qs m x ↔ HasEntry rs m x ∨ m = n) (fresh : n ∉ l) :
    Names qs x (l ++ [n]) :=
  ⟨by simpa [List.nodup_append] using ⟨h.nodup, fun _ hm e => fresh (e ▸ hm)⟩,
    fun m => by rw [List.mem_append, List.mem_singleton, has, h.mem]⟩

/-- An entry that is in another state is in no list of this one. -/
theorem Names.not_mem_of_other (h : Names rs x l) (ids : (rs.map (fun r => r.id)).Nodup) (other : HasEntry rs n y)
    (ne : y ≠ x) : n ∉ l := by
  intro hn
  obtain ⟨r, hr, rfl, rfl⟩ := other
  obtain ⟨q, hq, id, rfl⟩ := (h.mem _).mp hn
  exact ne (by rw [List.inj_on_of_nodup_map ids hr hq id.symm])

/-- An entry that has left all states but its own is missed by no other list. -/
theorem Names.without_other (h : Names rs x l) (ids : (rs.map (fun r => r.id)).Nodup) (other : HasEntry rs n y)
    (ne : y ≠ x) (has : ∀ m, HasEntry qs m x ↔ HasEntry rs m x ∧ m ≠ n) : Names qs x l :=
  h.without has h.nodup fun _ => ⟨fun hm => ⟨hm, fun e => h.not_mem_of_other ids other ne (e ▸ hm)⟩, And.left⟩

end

/-! ### Changes of the list of entries -/

/-- A change of an entry that keeps its number, its tag and its status. -/
structure Response.Keeps (g : Response → Response) : Prop where
  id : ∀ r, (g r).id = r.id
  tag : ∀ r, (g r).tag = r.tag
  status : ∀ r, (g r).status = r.status

/-- The entry `n` changed by `g`. -/
def changeEntry (n : Nat) (g : Response → Response) (r : Response) : Response := if r.id = n then g r else r

section
variable {rs : List Response} {x : EntryState} {n : Nat} {g : Response → Response}

theorem Response.Keeps.changeEntry (h : Response.Keeps g) (n : Nat) : Response.Keeps (changeEntry n g) := by
  refine ⟨fun r => ?_, fun r => ?_, fun r => ?_⟩ <;> unfold Machine.changeEntry <;> split_ifs
  · exact h.id r
  · rfl
  · exact h.tag r
  · rfl
  · exact h.status r
  · rfl

theorem Response.Keeps.map_id (h : Response.Keeps g) (rs : List Response) :
    (rs.map g).map (fun r => r.id) = rs.map (fun r => r.id) := by
  rw [List.map_map]
  exact List.map_congr_left fun r _ => h.id r

/-- The tags of the entries whose status is not TAG_REUSED (R146). -/
def outstandingTags (rs : List Response) : List Tag :=
  (rs.filter (fun r => r.status != .tagReused)).map (fun r => r.tag)

theorem Response.Keeps.outstandingTags_map (h : Response.Keeps g) (rs : List Response) :
    outstandingTags (rs.map g) = outstandingTags rs := by
  unfold outstandingTags
  rw [List.filter_map, List.map_map]
  have status : (fun r : Response => r.status != .tagReused) ∘ g = fun r => r.status != .tagReused :=
    funext fun r => congrArg (· != Status.tagReused) (h.status r)
  rw [status]
  exact List.map_congr_left fun r _ => h.tag r

/-- A change that keeps numbers and states. -/
theorem hasEntry_map (id : ∀ r, (g r).id = r.id) (state : ∀ r, (g r).state = r.state) :
    HasEntry (rs.map g) n x ↔ HasEntry rs n x := by
  simp [HasEntry, id, state]

theorem exists_mem_map_changed {P : Response → Prop} :
    (∃ r ∈ rs.map (changeEntry n g), P r) ↔ (∃ r ∈ rs, r.id = n ∧ P (g r)) ∨ ∃ r ∈ rs, r.id ≠ n ∧ P r := by
  simp only [List.mem_map, exists_exists_and_eq_and, changeEntry]
  constructor
  · rintro ⟨r, hr, h⟩
    split at h
    · exact .inl ⟨r, hr, ‹_›, h⟩
    · exact .inr ⟨r, hr, ‹_›, h⟩
  · rintro (⟨r, hr, id, h⟩ | ⟨r, hr, id, h⟩)
    · exact ⟨r, hr, by rw [if_pos id]; exact h⟩
    · exact ⟨r, hr, by rw [if_neg id]; exact h⟩

/-- The entry `n` leaves every state but the one it enters. -/
theorem hasEntry_changed_left {y : EntryState} (state : ∀ r, (g r).state = y) (ne : x ≠ y) (m : Nat) :
    HasEntry (rs.map (changeEntry n g)) m x ↔ HasEntry rs m x ∧ m ≠ n := by
  unfold HasEntry
  rw [exists_mem_map_changed]
  constructor
  · rintro (⟨r, -, -, -, hx⟩ | ⟨r, hr, id, rfl, hx⟩)
    · exact absurd (hx.symm.trans (state r)) ne
    · exact ⟨⟨r, hr, rfl, hx⟩, id⟩
  · rintro ⟨⟨r, hr, rfl, hx⟩, id⟩
    exact .inr ⟨r, hr, id, rfl, hx⟩

/-- The entry `n` enters a state. -/
theorem hasEntry_changed_entered (keeps : Response.Keeps g) {y z : EntryState} (state : ∀ r, (g r).state = y)
    (has : HasEntry rs n z) (m : Nat) : HasEntry (rs.map (changeEntry n g)) m y ↔ HasEntry rs m y ∨ m = n := by
  obtain ⟨q, hq, hn, -⟩ := has
  unfold HasEntry
  rw [exists_mem_map_changed]
  constructor
  · rintro (⟨r, -, hr, rfl, -⟩ | ⟨r, hr, -, rfl, hx⟩)
    · exact .inr ((keeps.id r).trans hr)
    · exact .inl ⟨r, hr, rfl, hx⟩
  · rintro (⟨r, hr, rfl, hx⟩ | rfl)
    · by_cases id : r.id = n
      · exact .inl ⟨r, hr, id, keeps.id r, state r⟩
      · exact .inr ⟨r, hr, id, rfl, hx⟩
    · exact .inl ⟨q, hq, hn, (keeps.id q).trans hn, state q⟩

theorem hasEntry_append {e : Response} {m : Nat} :
    HasEntry (rs ++ [e]) m x ↔ HasEntry rs m x ∨ e.id = m ∧ e.state = x := by
  simp [HasEntry, or_and_right, exists_or]

theorem hasEntry_filter {m : Nat} :
    HasEntry (rs.filter (fun r => r.id != n)) m x ↔ HasEntry rs m x ∧ m ≠ n := by
  simp only [HasEntry, List.mem_filter, bne_iff_ne]
  constructor
  · rintro ⟨r, ⟨hr, ne⟩, rfl, hx⟩
    exact ⟨⟨r, hr, rfl, hx⟩, ne⟩
  · rintro ⟨⟨r, hr, rfl, hx⟩, ne⟩
    exact ⟨r, ⟨hr, ne⟩, rfl, hx⟩

theorem outstandingTags_append (rs : List Response) (e : Response) :
    outstandingTags (rs ++ [e]) =
      if e.status = .tagReused then outstandingTags rs else outstandingTags rs ++ [e.tag] := by
  unfold outstandingTags
  split <;> rename_i h <;> simp [h]

/-- A sent entry takes its tag with it, where the tag is its own (R152). -/
theorem outstandingTags_filter (ids : (rs.map (fun r => r.id)).Nodup) (nodup : (outstandingTags rs).Nodup)
    {r : Response} (hr : r ∈ rs) : outstandingTags (rs.filter (fun q => q.id != r.id)) =
      if r.status = .tagReused then outstandingTags rs else (outstandingTags rs).filter (fun t => t != r.tag) := by
  have same {q : Response} (hq : q ∈ rs) (id : q.id = r.id) : q = r := List.inj_on_of_nodup_map ids hq hr id
  unfold outstandingTags at nodup ⊢
  rw [List.filter_filter]
  split <;> rename_i reused
  · congr 1
    refine List.filter_congr fun q hq => ?_
    by_cases id : q.id = r.id
    · rw [same hq id, reused]; rfl
    · simp [id]
  · rw [List.filter_map, List.filter_filter]
    congr 1
    refine List.filter_congr fun q hq => ?_
    by_cases own : q.status = .tagReused
    · simp [own]
    · have tag : q.tag = r.tag ↔ q.id = r.id := by
        refine ⟨fun h => ?_, fun h => by rw [same hq h]⟩
        rw [List.inj_on_of_nodup_map nodup (List.mem_filter.mpr ⟨hq, bne_iff_ne.mpr own⟩)
          (List.mem_filter.mpr ⟨hr, bne_iff_ne.mpr reused⟩) h]
      have tags : (q.tag != r.tag) = (q.id != r.id) := by rw [Bool.eq_iff_iff, bne_iff_ne, bne_iff_ne, Ne, Ne, tag]
      rw [Bool.and_comm]
      exact congrArg (· && _) tags.symm

end

/-! ### Numbers and tags -/

/-- Entries have distinct numbers below 64, and the tags are the distinct ones of the entries that own theirs (R146,
R149). -/
structure Labelled (rs : List Response) (tags : List Tag) : Prop where
  owned : tags = outstandingTags rs
  nodup : tags.Nodup
  ids : (rs.map (fun r => r.id)).Nodup
  below : ∀ r ∈ rs, r.id < 64

section
variable {rs : List Response} {tags : List Tag}

theorem Labelled.map (h : Labelled rs tags) {g : Response → Response} (keeps : Response.Keeps g) :
    Labelled (rs.map g) tags where
  owned := h.owned.trans (keeps.outstandingTags_map rs).symm
  nodup := h.nodup
  ids := by rw [keeps.map_id]; exact h.ids
  below r hr := by
    obtain ⟨q, hq, rfl⟩ := List.mem_map.mp hr
    rw [keeps.id]
    exact h.below q hq

/-- A new entry of a FREE number, with a fresh tag or none of its own. -/
theorem Labelled.append (h : Labelled rs tags) {e : Response} (below : e.id < 64) (free : ∀ r ∈ rs, r.id ≠ e.id)
    (fresh : e.status ≠ .tagReused → e.tag ∉ tags) :
    Labelled (rs ++ [e]) (if e.status = .tagReused then tags else tags ++ [e.tag]) where
  owned := by rw [outstandingTags_append, h.owned]
  nodup := by
    split
    · exact h.nodup
    · simpa [List.nodup_append] using ⟨h.nodup, fun t ht same => fresh ‹_› (same ▸ ht)⟩
  ids := by simpa [List.nodup_append] using ⟨h.ids, free⟩
  below r hr := by
    rcases List.mem_append.mp hr with old | new
    · exact h.below r old
    · rw [List.mem_singleton.mp new]; exact below

/-- The entry of a sent response goes with its tag (R152). -/
theorem Labelled.filter (h : Labelled rs tags) {r : Response} (hr : r ∈ rs) :
    Labelled (rs.filter (fun q => q.id != r.id))
      (if r.status = .tagReused then tags else tags.filter (fun t => t != r.tag)) where
  owned := by rw [outstandingTags_filter h.ids (h.owned ▸ h.nodup) hr, h.owned]
  nodup := by
    split
    · exact h.nodup
    · exact h.nodup.filter _
  ids := h.ids.sublist (List.filter_sublist.map _)
  below q hq := h.below q (List.mem_filter.mp hq).1

end

/-! ### The invariant, part by part -/

/-- The parts of the invariant of the requests, a list for each state of the entries (R146, R149 to R151). -/
structure State.InStep (s : State) : Prop where
  labels : Labelled s.rfe.responses s.rfe.tags
  ready : Names s.rfe.responses .ready s.rfe.ready
  reads : Names s.rfe.responses .waiting s.dcc.targets
  sending : Names s.rfe.responses .sending s.clp.tx.entry?.toList
  order : s.dcc.OrderOk

/-- The parts are those of the statement. -/
theorem State.inStep_iff {s : State} : s.InStep ↔ s.RequestsOk := by
  have names {x : EntryState} {l : List Nat} (nodup : l.Nodup) (has : ∀ n ∈ l, HasEntry s.rfe.responses n x)
      (all : ∀ r ∈ s.rfe.responses, r.state = x → r.id ∈ l) : Names s.rfe.responses x l :=
    ⟨nodup, fun n => ⟨has n, fun ⟨r, hr, id, state⟩ => id ▸ all r hr state⟩⟩
  constructor
  · rintro ⟨⟨tags, distinct, ids, below⟩, ready, reads, sending, order⟩
    exact ⟨⟨tags, distinct⟩, ⟨ids, below, ready.nodup, fun n => (ready.mem n).mp,
        fun r hr h => (ready.mem _).mpr ⟨r, hr, rfl, h⟩⟩,
      ⟨reads.nodup, fun n => (reads.mem n).mp, fun r hr h => (reads.mem _).mpr ⟨r, hr, rfl, h⟩⟩,
      ⟨fun n hn => (sending.mem n).mp (Option.mem_toList.mpr hn),
        fun r hr h => Option.mem_toList.mp ((sending.mem _).mpr ⟨r, hr, rfl, h⟩)⟩, order⟩
  · rintro ⟨⟨tags, distinct⟩, ⟨ids, below, nodup, hasReady, allReady⟩, ⟨nodup', hasTarget, allTargets⟩,
      ⟨hasSending, allSending⟩, order⟩
    exact ⟨⟨tags, distinct, ids, below⟩, names nodup hasReady allReady, names nodup' hasTarget allTargets,
      names (by cases s.clp.tx.entry? <;> simp) (fun n hn => hasSending n (Option.mem_toList.mp hn))
        (fun r hr h => Option.mem_toList.mpr (allSending r hr h)), order⟩

theorem State.reset_inStep : State.reset.InStep :=
  ⟨⟨rfl, List.nodup_nil, List.nodup_nil, nofun⟩, ⟨List.nodup_nil, by simp [HasEntry, State.reset, FrontEnd.reset]⟩,
    ⟨List.nodup_nil, by simp [HasEntry, State.reset, FrontEnd.reset, Channel.targets, Channel.reset]⟩,
    ⟨List.nodup_nil, by simp [HasEntry, State.reset, FrontEnd.reset, LinkPort.reset, Transmitter.entry?]⟩,
    List.Pairwise.nil, List.Pairwise.nil, nofun, nofun, nofun⟩

section
variable {s t : State}

theorem State.InStep.of_keeps (h : s.InStep) (keeps : s.KeepsWork t) (tx : t.clp.tx = s.clp.tx)
    (nextSeq : t.dcc.nextSeq = s.dcc.nextSeq) : t.InStep where
  labels := by rw [keeps.rfe]; exact h.labels
  ready := by rw [keeps.rfe]; exact h.ready
  reads := by unfold Channel.targets; rw [keeps.rfe, keeps.readQ, keeps.inFlight]; exact h.reads
  sending := by rw [keeps.rfe, tx]; exact h.sending
  order := by unfold Channel.OrderOk; rw [keeps.readQ, keeps.writeQ, nextSeq]; exact h.order

/-! ### Operations on the channel -/

/-- The channel moves on, and the reads under way fill the same entries. -/
theorem State.InStep.of_channel (h : s.InStep) {d : Channel} (order : d.OrderOk)
    (targets : d.targets.Perm s.dcc.targets) (hst : HoldStore) : State.InStep { s with dcc := d, hst := hst } :=
  { h with order := order, reads := h.reads.perm targets }

theorem Channel.OrderOk.sublist {c d : Channel} (h : c.OrderOk) (readQ : d.readQ.Sublist c.readQ)
    (writeQ : d.writeQ.Sublist c.writeQ) (nextSeq : d.nextSeq = c.nextSeq) : d.OrderOk := by
  obtain ⟨reads, writes, readsBelow, writesBelow, apart⟩ := h
  exact ⟨reads.sublist readQ, writes.sublist writeQ, fun e he => nextSeq ▸ readsBelow e (readQ.subset he),
    fun w hw => nextSeq ▸ writesBelow w (writeQ.subset hw),
    fun e he w hw => apart e (readQ.subset he) w (writeQ.subset hw)⟩

/-- A read that leaves a queue in take order leaves all others there. -/
theorem perm_cons_filter_seq {l : List ReadEntry} (sorted : l.Pairwise (fun a b => a.seq < b.seq)) {e : ReadEntry}
    (he : e ∈ l) : (e :: l.filter (fun x => x.seq != e.seq)).Perm l := by
  have nodup : (l.map (fun x => x.seq)).Nodup := List.pairwise_map.mpr (sorted.imp (fun h => Nat.ne_of_lt h))
  have erased : l.filter (fun x => x.seq != e.seq) = l.erase e := by
    rw [nodup.of_map.erase_eq_filter]
    refine List.filter_congr fun x hx => ?_
    rw [Bool.eq_iff_iff, bne_iff_ne, bne_iff_ne]
    exact ⟨fun h e => h (congrArg _ e), fun h e => h (List.inj_on_of_nodup_map nodup hx he e)⟩
  rw [erased]
  exact (List.perm_cons_erase he).symm

/-- An operation of a free channel begins: the queues stay in take order, and the reads fill the same entries. -/
def Channel.Advances (c d : Channel) : Prop := c.OrderOk → c.inFlight = none → d.OrderOk ∧ d.targets.Perm c.targets

section
variable (c : Channel)

/-- An operation that begins and is no read. -/
theorem Channel.Advances.of_idle {c d : Channel} (readQ : d.readQ = c.readQ) (writeQ : d.writeQ.Sublist c.writeQ)
    (nextSeq : d.nextSeq = c.nextSeq) (idle : d.inFlight.bind InFlight.target? = none) : c.Advances d := by
  refine fun order free => ⟨order.sublist (by rw [readQ]) writeQ nextSeq, ?_⟩
  unfold Channel.targets
  rw [readQ, idle, free]
  exact List.Perm.refl _

theorem Channel.beginRefresh_advances : c.Advances c.beginRefresh := .of_idle rfl (List.Sublist.refl _) rfl rfl

theorem Channel.beginWrite_advances (w : WriteEntry) : c.Advances (c.beginWrite w) :=
  .of_idle rfl (c.beginWrite_keeps w).writeQ rfl rfl

/-- The target of a read that begins is that of its entry in the queue. -/
theorem Channel.beginRead_advances {e : ReadEntry} (he : e ∈ c.readQ) : c.Advances (c.beginRead e) := by
  intro order free
  have keeps := c.beginRead_keeps e
  refine ⟨order.sublist keeps.readQ keeps.writeQ keeps.nextSeq, ?_⟩
  have perm := (perm_cons_filter_seq order.1 he).map (fun x => x.entry)
  unfold Channel.targets
  rw [free, Channel.beginRead_readQ, Channel.beginRead_inFlight]
  simp only [Option.bind_none, Option.toList_none, List.append_nil]
  exact List.perm_append_comm.trans perm

theorem Channel.beginRetirement_advances (r : Retirement) : c.Advances (c.beginRetirement r) := by
  rcases c.beginRetirement_cases r with ⟨e, he, -, -, b⟩ | ⟨w, -, -, -, b⟩ | ⟨-, -, b⟩ <;> rw [b]
  · exact c.beginRead_advances he
  · exact c.beginWrite_advances w
  · exact .of_idle rfl (List.Sublist.refl _) rfl rfl

end

/-- The arbiter's choice touches the channel and the store alone. -/
theorem State.arbitrate_eq (s : State) :
    s.arbitrate = { s with dcc := s.arbitrate.dcc, hst := s.arbitrate.hst } := by
  rcases s.arbitrate_cases with h | ⟨-, -, ⟨-, h⟩ | ⟨u, -, -, h⟩ | ⟨e, -, h⟩ | ⟨w, ws, -, -, h⟩⟩ <;> rw [h]
  rcases s.retire_cases u with ⟨r, -, h⟩ | ⟨x, r, -, -, -, -, -, h⟩ | ⟨-, -, h⟩ <;> rw [h]

theorem State.InStep.arbitrate (h : s.InStep) : s.arbitrate.InStep := by
  have begun {d : Channel} {hst : HoldStore} (free : s.dcc.inFlight = none) (advances : s.dcc.Advances d) :
      State.InStep { s with dcc := d, hst := hst } :=
    h.of_channel (advances h.order free).1 (advances h.order free).2 hst
  rcases s.arbitrate_cases with e | ⟨-, free, ⟨-, e⟩ | ⟨u, -, -, e⟩ | ⟨r, chosen, e⟩ | ⟨w, ws, -, -, e⟩⟩ <;> rw [e]
  · exact h
  · exact begun free s.dcc.beginRefresh_advances
  · rcases s.retire_cases u with ⟨r, -, e⟩ | ⟨x, r, -, -, -, -, -, e⟩ | ⟨-, -, e⟩ <;> rw [e]
    · exact begun free (s.dcc.beginRetirement_advances r)
    · exact begun free (Channel.beginRetirement_advances { s.dcc with inHand := some r } r)
    · exact h
  · exact begun free (s.dcc.beginRead_advances (Channel.chosenRead?_mem chosen).1)
  · exact begun free (s.dcc.beginWrite_advances w)

/-! ### The choices that follow an event -/

/-- The entry whose frame starts was the first READY one (R151). -/
theorem State.InStep.transmit (h : s.InStep) : s.transmit.InStep := by
  rcases s.transmit_cases with e | ⟨-, idle, ⟨-, e⟩ | ⟨n, rest, first, e⟩⟩ <;> rw [e]
  · exact h
  · refine { h with sending := ?_ }
    have sending := h.sending
    rw [idle] at sending
    exact sending
  rcases s.startResponse_cases n rest with e' | ⟨r, hr, id, e'⟩ <;> rw [e']
  · exact h
  have keeps : Response.Keeps (fun r => { r with state := .sending }) := ⟨fun _ => rfl, fun _ => rfl, fun _ => rfl⟩
  have nodup := h.ready.nodup
  rw [first, List.nodup_cons] at nodup
  have isReady : HasEntry s.rfe.responses n .ready := (h.ready.mem n).mp (by rw [first]; exact List.mem_cons_self)
  have sending := h.sending
  rw [idle] at sending
  exact
    { labels := h.labels.map (keeps.changeEntry n)
      ready := h.ready.without (hasEntry_changed_left (fun _ => rfl) nofun) nodup.2 fun m => by
        rw [first, List.mem_cons]
        exact ⟨fun hm => ⟨.inr hm, fun e => nodup.1 (e ▸ hm)⟩, fun ⟨hm, ne⟩ => hm.resolve_left ne⟩
      reads := h.reads.without_other h.labels.ids isReady nofun (hasEntry_changed_left (fun _ => rfl) nofun)
      sending := sending.concat (hasEntry_changed_entered keeps (fun _ => rfl) isReady) List.not_mem_nil
      order := h.order }

theorem State.InStep.settle (h : s.InStep) : s.settle.InStep := by
  have trained : s.startTraining.InStep := by
    refine h.of_keeps s.startTraining_keepsStore.work ?_ ?_ <;>
      rcases s.startTraining_cases with e | ⟨-, -, -, e⟩ <;> rw [e]
  have awake : s.startTraining.wake.InStep := by
    refine trained.of_keeps (State.wake_keepsStore _).work ?_ ?_ <;>
      rcases s.startTraining.wake_cases with e | ⟨-, e⟩ <;> rw [e]
  have rested : s.startTraining.wake.arbitrate.enterQuiet.InStep := by
    refine awake.arbitrate.of_keeps (State.enterQuiet_keepsStore _).work ?_ ?_ <;>
      rcases s.startTraining.wake.arbitrate.enterQuiet_cases with e | ⟨-, -, e⟩ <;> rw [e]
  exact rested.transmit

/-! ### Response entries and slots -/

theorem State.InStep.voidClaims (h : s.InStep) (n : Nat) : (s.voidClaims n).InStep := by
  have keeps : Response.Keeps fun r => if r.claim = some n then { r with claim := none } else r := by
    refine ⟨fun r => ?_, fun r => ?_, fun r => ?_⟩ <;> split <;> rfl
  have same {x : EntryState} (m : Nat) : HasEntry (s.voidClaims n).rfe.responses m x ↔ HasEntry s.rfe.responses m x :=
    hasEntry_map keeps.id fun r => by split <;> rfl
  exact
    { labels := h.labels.map keeps, ready := h.ready.of_iff same, reads := h.reads.of_iff same
      sending := h.sending.of_iff same, order := h.order }

theorem State.InStep.overwrite (h : s.InStep) (x : Slot) (data : List Byte) : (s.overwrite x data).InStep := by
  refine State.InStep.voidClaims ?_ x.num
  exact { h with }

theorem State.InStep.checkFlush (h : s.InStep) : s.checkFlush.InStep := by
  refine h.of_keeps s.checkFlush_keepsWork (by rw [s.checkFlush_works.clp]) ?_
  rcases s.checkFlush_cases with ⟨-, -, e⟩ | ⟨-, e⟩ <;> rw [e]
  rfl

theorem State.InStep.freeSlot (h : s.InStep) (n : Nat) : (s.freeSlot n).InStep := by
  refine State.InStep.voidClaims ?_ n
  exact { h with }

theorem State.InStep.sendClaim (h : s.InStep) (n : Nat) : (s.sendClaim n).InStep := by
  cases hx : s.hst.slot? n with
  | none => unfold State.sendClaim; rw [hx]; exact h
  | some x =>
    rcases State.sendClaim_cases hx with ⟨-, -, e⟩ | ⟨-, e⟩ <;> rw [e]
    · have counted : State.InStep { s with counters.elided := bump s.counters.elided 1 } := { h with }
      exact (counted.freeSlot n).checkFlush
    · exact { h with }

theorem State.InStep.completeRetirement (h : s.InStep) (n : Nat) : (s.completeRetirement n).InStep := by
  cases hx : s.hst.slot? n with
  | none => unfold State.completeRetirement; rw [hx]; exact h
  | some x =>
    rcases State.completeRetirement_cases hx with ⟨-, e⟩ | ⟨-, e⟩ | ⟨-, e⟩ <;> rw [e]
    · have counted : State.InStep { s with counters.retired := bump s.counters.retired 1 } := { h with }
      exact (counted.freeSlot n).checkFlush
    · exact { h with }
    · exact h

/-! ### Takes -/

/-- A write at the tail of the write queue takes the next place (R126). -/
theorem State.InStep.withWrite (h : s.InStep) (cell : Nat) (w : WriteData) : (s.withWrite cell w).InStep := by
  obtain ⟨reads, writes, readsBelow, writesBelow, apart⟩ := h.order
  refine { h with
    order := ⟨reads, ?_, fun e he => Nat.lt_succ_of_lt (readsBelow e he), fun v hv => ?_, fun e he v hv => ?_⟩ }
  · simpa [State.withWrite, List.pairwise_append] using ⟨writes, writesBelow⟩
  · rcases List.mem_append.mp hv with old | new
    · exact Nat.lt_succ_of_lt (writesBelow v old)
    · rw [List.mem_singleton.mp new]; exact Nat.lt_succ_self _
  · rcases List.mem_append.mp hv with old | new
    · exact apart e he v old
    · rw [List.mem_singleton.mp new]; exact (readsBelow e he).ne

theorem State.InStep.queueWrite (h : s.InStep) {cell : Nat} {w : WriteData} (e : s.queueWrite cell w = some t) :
    t.InStep := by
  rw [State.queueWrite_withWrite e]
  exact h.withWrite cell w

/-- A read at the tail of the read queue takes the next place (R125). -/
theorem Channel.OrderOk.withRead {s : State} (h : s.dcc.OrderOk) (cell : Nat) (x : Extent) (entry : Nat)
    (boost : Bool) : (s.withRead cell x entry boost).dcc.OrderOk := by
  obtain ⟨reads, writes, readsBelow, writesBelow, apart⟩ := h
  refine ⟨?_, writes, fun e he => ?_, fun v hv => Nat.lt_succ_of_lt (writesBelow v hv), fun e he v hv => ?_⟩
  · simpa [State.withRead, List.pairwise_append] using ⟨reads, readsBelow⟩
  · rcases List.mem_append.mp he with old | new
    · exact Nat.lt_succ_of_lt (readsBelow e old)
    · rw [List.mem_singleton.mp new]; exact Nat.lt_succ_self _
  · rcases List.mem_append.mp he with old | new
    · exact apart e old v hv
    · rw [List.mem_singleton.mp new]; exact (writesBelow v hv).ne'

/-- A number that no entry has is in no list. -/
theorem Names.not_mem_of_free {rs : List Response} {x : EntryState} {l : List Nat} {n : Nat} (h : Names rs x l)
    (free : ∀ r ∈ rs, r.id ≠ n) : n ∉ l := fun hn => by
  obtain ⟨r, hr, id, -⟩ := (h.mem n).mp hn
  exact free r hr id

section
variable {e : Response} (below : e.id < 64) (free : ∀ r ∈ s.rfe.responses, r.id ≠ e.id)
  (fresh : e.status ≠ .tagReused → e.tag ∉ s.rfe.tags)
include below free fresh

/-- A new entry that is READY at the take (R150). -/
theorem State.InStep.addReady (h : s.InStep) (ready : e.state = .ready) : (s.addResponse e).InStep := by
  have other {x : EntryState} (ne : x ≠ .ready) (m : Nat) :
      HasEntry (s.rfe.responses ++ [e]) m x ↔ HasEntry s.rfe.responses m x := by
    rw [hasEntry_append, ready]
    exact or_iff_left fun h => ne h.2.symm
  refine
    { labels := h.labels.append below free fresh, ready := ?_, reads := h.reads.of_iff (other nofun)
      sending := h.sending.of_iff (other nofun), order := h.order }
  rw [State.addResponse_rfe_ready, if_pos ready]
  refine h.ready.concat (fun m => ?_) (h.ready.not_mem_of_free free)
  rw [State.addResponse_rfe_responses, hasEntry_append, ready]
  exact or_congr_right ⟨fun h => h.1.symm, fun h => ⟨h.symm, rfl⟩⟩

/-- A new entry that waits for the read that fills it (R125, R149). -/
theorem State.InStep.addWaiting (h : s.InStep) (waiting : e.state = .waiting) (cell : Nat) (x : Extent) (boost : Bool) :
    ((s.addResponse e).withRead cell x e.id boost).InStep := by
  have other {x : EntryState} (ne : x ≠ .waiting) (m : Nat) :
      HasEntry (s.rfe.responses ++ [e]) m x ↔ HasEntry s.rfe.responses m x := by
    rw [hasEntry_append, waiting]
    exact or_iff_left fun h => ne h.2.symm
  have ready : (s.addResponse e).rfe.ready = s.rfe.ready := by
    rw [State.addResponse_rfe_ready, waiting]
    rfl
  have targets : ((s.addResponse e).withRead cell x e.id boost).dcc.targets.Perm (s.dcc.targets ++ [e.id]) := by
    simp only [Channel.targets, State.withRead, State.addResponse_dcc, List.map_append, List.map_cons, List.map_nil,
      List.append_assoc]
    exact List.perm_append_comm.append_left _
  have reads : Names (s.rfe.responses ++ [e]) .waiting (s.dcc.targets ++ [e.id]) := by
    refine h.reads.concat (fun m => ?_) (h.reads.not_mem_of_free free)
    rw [hasEntry_append, waiting]
    exact or_congr_right ⟨fun h => h.1.symm, fun h => ⟨h.symm, rfl⟩⟩
  exact
    { labels := h.labels.append below free fresh
      ready := (h.ready.of_iff (other nofun)).perm (.of_eq ready)
      reads := reads.perm targets
      sending := h.sending.of_iff (other nofun)
      order := Channel.OrderOk.withRead (s := s.addResponse e) h.order cell x e.id boost }

end

/-- No control word moves the take order's count (R159). -/
theorem State.writeControl_nextSeq (c : ControlWord) (w : List Byte) (s : State) :
    (s.writeControl c w).dcc.nextSeq = s.dcc.nextSeq := by
  have flushed (t : State) : t.checkFlush.dcc.nextSeq = t.dcc.nextSeq := by
    rcases t.checkFlush_cases with ⟨-, -, h⟩ | ⟨-, h⟩ <;> rw [h]
    rfl
  cases c with
  | epochSettings | refreshQuiet | alertLine | ring | flagClear | plain => rfl
  | storeSettings =>
    unfold State.writeControl State.writeStoreSettings
    dsimp only
    rw [State.raiseStoreMust_eq]
  | softReset =>
    unfold State.writeControl State.writeSoftReset State.startSoftReset
    dsimp only
    split_ifs
    · rfl
    · exact flushed _
    · rfl
  | enable k =>
    unfold State.writeControl State.writeEnable State.enableRing State.disableRing
    dsimp only
    split_ifs <;> rfl
  | counterClear =>
    unfold State.writeControl State.writeCounterClear
    dsimp only
    split_ifs <;> rfl

theorem State.InStep.writeControl (h : s.InStep) (c : ControlWord) (w : List Byte) : (s.writeControl c w).InStep :=
  h.of_keeps (s.writeControl_keepsWork c w) (by rw [(s.writeControl_works c w).clp]) (s.writeControl_nextSeq c w)

theorem State.InStep.writeControlCell (h : s.InStep) (n : Nat) (data : List Byte) :
    (s.writeControlCell n data).InStep := by
  unfold State.writeControlCell
  induction List.range 32 generalizing s with
  | nil => exact h
  | cons w ws ih => exact ih (h.writeControl _ _)

/-- Tracking leaves the request path and the channel alone. -/
theorem State.InStep.track (h : s.InStep) {k : Fin 64} (keeps : State.TrackKeeps k s t) : t.InStep where
  labels := by rw [keeps.rfe]; exact h.labels
  ready := by rw [keeps.rfe]; exact h.ready
  reads := by rw [keeps.rfe, keeps.dcc]; exact h.reads
  sending := by rw [keeps.rfe, keeps.clp]; exact h.sending
  order := by rw [keeps.dcc]; exact h.order

theorem State.InStep.takePlainWrite (h : s.InStep) {cell : Nat} {data : List Byte}
    (e : s.takePlainWrite cell data = some t) : t.InStep := by
  unfold State.takePlainWrite at e
  split at e
  · cases e; exact h.overwrite _ _
  · exact h.queueWrite e

theorem State.InStep.takePositionWrite (h : s.InStep) {k : Fin 64} {p cell : Nat} {data : List Byte}
    (e : s.takePositionWrite k p cell data = some t) : t.InStep := by
  have tracked := h.track (s.trackWrite_keeps k p (summaryOf data))
  rcases State.takePositionWrite_cases e with ⟨x, -, rfl⟩ | ⟨-, -, n, -, rfl⟩ | ⟨-, -, -, rfl⟩
  · exact tracked.overwrite x data
  · rw [State.admitCell_eq]
    exact { tracked with }
  · exact { tracked.withWrite cell (.full data) with }

theorem State.InStep.takeCellWrite (h : s.InStep) {cell : Nat} {data : List Byte}
    (e : s.takeCellWrite cell data = some t) : t.InStep := by
  unfold State.takeCellWrite at e
  split at e
  · cases e; exact { h with }
  · cases e; exact h
  · obtain ⟨u, hu, rfl⟩ := Option.map_eq_some_iff.mp e
    exact (h.queueWrite hu).writeControlCell _ _
  · split at e
    · exact h.takePositionWrite e
    · exact h.takePlainWrite e
    · exact h.takePlainWrite e

theorem State.InStep.takeWordWrite (h : s.InStep) {cell w : Nat} {data : List Byte}
    (e : s.takeWordWrite cell w data = some t) : t.InStep := by
  unfold State.takeWordWrite at e
  split at e
  · cases e; exact { h with }
  · cases e; exact h
  · obtain ⟨u, hu, rfl⟩ := Option.map_eq_some_iff.mp e
    exact (h.queueWrite hu).writeControl _ _
  · split at e
    · cases e; exact { h with }
    · exact h.queueWrite e

/-! Reads: the entry has a FREE number, and its tag is fresh where the read is not refused for it. -/

section
variable {cell id : Nat} {tag : Tag} {x : Extent} (h : s.InStep) (entry : s.rfe.freeEntry? = some id)
include h entry

/-- An answer that is READY at the take. -/
theorem State.InStep.answer {status : Status} (fresh : status ≠ .tagReused → tag ∉ s.rfe.tags)
    (data : List Byte) : (s.addResponse (readyResponse id tag x status data)).InStep := by
  obtain ⟨below, free⟩ := FrontEnd.freeEntry?_spec entry
  exact h.addReady (e := readyResponse id tag x status data) below free fresh rfl

variable (fresh : tag ∉ s.rfe.tags)
include fresh

theorem State.InStep.takeDramRead {hr : HeaderRead} {boost : Bool}
    (e : s.takeDramRead cell id tag x hr boost = some t) : t.InStep := by
  obtain ⟨below, free⟩ := FrontEnd.freeEntry?_spec entry
  obtain ⟨-, rfl⟩ := State.queueRead_eq_some.mp e
  exact h.addWaiting (e := waitingResponse id tag x hr) below free (fun _ => fresh) rfl cell x boost

theorem State.InStep.takeBufferRead {hr : HeaderRead} {boost : Bool}
    (e : s.takeBufferRead cell id tag x hr boost = some t) : t.InStep := by
  rcases State.takeBufferRead_cases e with ⟨slot, -, rfl⟩ | ⟨-, -, e⟩
  · obtain ⟨below, free⟩ := FrontEnd.freeEntry?_spec entry
    have counted : State.InStep { s with counters.hits := bump s.counters.hits 1 } := { h with }
    exact counted.addReady below free (fun _ => fresh) rfl
  · have counted : State.InStep { s with counters.misses := bump s.counters.misses 1 } := { h with }
    exact counted.takeDramRead entry fresh e

theorem State.InStep.takeBufferCellRead (e : s.takeBufferCellRead cell id tag = some t) : t.InStep := by
  unfold State.takeBufferCellRead at e
  split at e
  · rename_i k p _
    have keeps := s.trackRead_keeps k p
    exact (h.track keeps).takeBufferRead (by rw [keeps.rfe]; exact entry) (by rw [keeps.rfe]; exact fresh) e
  · exact h.takeBufferRead entry fresh e
  · exact h.takeBufferRead entry fresh e

end

/-- A read whose tag is outstanding brings none of its own (R146). -/
theorem State.InStep.takeTagReused (h : s.InStep) {id : Nat} (entry : s.rfe.freeEntry? = some id) (tag : Tag)
    (x : Extent) : (s.takeTagReused id tag x).InStep := by
  have flagged : State.InStep ({ s with counters.tagReuses := bump s.counters.tagReuses 1 }.raiseAll .linkFault) :=
    { h with }
  exact flagged.answer entry (fun own => absurd rfl own) _

theorem State.InStep.takeRangeRead (h : s.InStep) {id : Nat} (entry : s.rfe.freeEntry? = some id) {tag : Tag}
    (fresh : tag ∉ s.rfe.tags) (x : Extent) : (s.takeRangeRead id tag x).InStep := by
  have flagged : s.rangeError.InStep := { h with }
  exact flagged.answer entry (fun _ => fresh) _

theorem State.InStep.takeCellRead (h : s.InStep) {cell : Nat} {tag : Tag} (e : s.takeCellRead cell tag = some t) :
    t.InStep := by
  unfold State.takeCellRead at e
  split at e
  · cases e
  rename_i id entry
  split at e
  · cases e; exact h.takeTagReused entry _ _
  rename_i fresh
  split at e
  · cases e; exact h.takeRangeRead entry fresh _
  · cases e; exact h.answer entry (fun _ => fresh) _
  · exact h.takeDramRead entry fresh e
  · exact h.takeBufferCellRead entry fresh e

theorem State.InStep.takeWordRead (h : s.InStep) {cell w : Nat} {tag : Tag}
    (e : s.takeWordRead cell w tag = some t) : t.InStep := by
  unfold State.takeWordRead at e
  split at e
  · cases e
  rename_i id entry
  split at e
  · cases e; exact h.takeTagReused entry _ _
  rename_i fresh
  split at e
  · cases e; exact h.takeRangeRead entry fresh _
  · cases e; exact h.answer entry (fun _ => fresh) _
  · exact h.takeDramRead entry fresh e
  · exact h.takeBufferRead entry fresh e

theorem State.InStep.takeRequest (h : s.InStep) {r : Request} (e : s.takeRequest r = some t) : t.InStep := by
  cases r with
  | cellWrite cell data => exact h.takeCellWrite e
  | wordWrite cell w data => exact h.takeWordWrite e
  | cellRead cell tag => exact h.takeCellRead e
  | wordRead cell w tag => exact h.takeWordRead e

theorem State.InStep.takeIf (h : s.InStep) (named : Bool) : (s.takeIf named).InStep := by
  rcases s.takeIf_cases named with e | ⟨r, rest, u, -, taken, e⟩ <;> rw [e]
  · exact h
  · exact (State.InStep.takeRequest (s := s.popHead rest) { h with } taken).settle

/-! ### Events -/

theorem State.InStep.receiveFrame (h : s.InStep) (frame : List Byte) : (s.receiveFrame frame).InStep := by
  rcases s.receiveFrame_cases frame with ⟨-, e⟩ | ⟨r, -, ⟨-, e⟩ | ⟨-, e⟩⟩ <;> rw [e] <;> exact { h with }

/-- A dropped read fills no entry (R137). -/
theorem InFlight.dropRead_target? (f : InFlight) : f.dropRead.target? = none := by
  unfold InFlight.dropRead InFlight.target?
  cases h : f.op <;> simp [h]

/-- A link drop leaves no entry, no queued read and no frame; the write queue keeps its order (R137, R154). -/
theorem State.InStep.linkDown (h : s.InStep) : s.linkDown.InStep := by
  rcases s.linkDown_cases with ⟨-, e⟩ | ⟨-, e⟩ | ⟨-, e⟩ <;> rw [e]
  · have reset := State.reset_inStep
    have targets : s.dropLink.dcc.targets = [] := by
      change ((s.dcc.inFlight.map InFlight.dropRead).bind InFlight.target?).toList = []
      cases s.dcc.inFlight with
      | none => rfl
      | some f => simp [InFlight.dropRead_target?]
    exact
      { labels := reset.labels, ready := reset.ready, reads := reset.reads.perm (.of_eq targets)
        sending := reset.sending
        order := h.order.sublist (d := s.dropLink.dcc) (List.nil_sublist _) (List.Sublist.refl _) rfl }
  · exact { h with }
  · exact h

/-- The channel falls free from an operation that fills no entry. -/
theorem State.InStep.freeChannel (h : s.InStep) (idle : s.dcc.inFlight.bind InFlight.target? = none) :
    s.freeChannel.InStep := by
  refine { h with reads := h.reads.perm (.of_eq ?_) }
  change s.dcc.readQ.map (fun e => e.entry) ++ [] = _
  unfold Channel.targets
  rw [idle]
  rfl

theorem State.inFlight_of_operation? {op : Operation} (h : s.operation? = some op) :
    ∃ f, s.dcc.inFlight = some f ∧ f.op = op := Option.map_eq_some_iff.mp h

/-- An entry once the bytes of its read are in place (R132). -/
def Response.landed (bytes : List Byte) (r : Response) : Response :=
  { r with state := .ready, data := rewritten r.header bytes }

/-- A read whose entry stands lands its bytes there (R132). -/
theorem State.completeRead_lands {s : State} {e : ReadEntry} {r : Response} (hr : r ∈ s.rfe.responses)
    (id : r.id = e.entry) :
    s.completeRead e false = s.freeChannel.landBytes e.entry (s.dram.readExtent e.cell e.extent) := by
  unfold State.completeRead
  rw [if_neg]
  simp only [Bool.false_or, List.all_eq_true, bne_iff_ne]
  exact fun all => all r hr id

/-- The bytes of a read make its WAITING entry READY, after every other (R132, R150). -/
theorem State.InStep.completeRead (h : s.InStep) {e : ReadEntry} {dropped : Bool}
    (op : s.operation? = some (.read e dropped)) : (s.completeRead e dropped).InStep := by
  obtain ⟨f, inFlight, opf⟩ := s.inFlight_of_operation? op
  cases dropped with
  | true =>
    refine h.freeChannel ?_
    rw [inFlight]
    simp only [Option.bind_some, InFlight.target?, opf]
  | false =>
    have targets : s.dcc.targets = s.dcc.readQ.map (fun e => e.entry) ++ [e.entry] := by
      unfold Channel.targets
      rw [inFlight]
      simp only [Option.bind_some, InFlight.target?, opf, Option.toList_some]
    have waits : HasEntry s.rfe.responses e.entry .waiting := (h.reads.mem _).mp (by simp [targets])
    have nodup := h.reads.nodup
    rw [targets, List.nodup_append] at nodup
    have left (m : Nat) : m ∈ s.dcc.readQ.map (fun e => e.entry) ↔ m ∈ s.dcc.targets ∧ m ≠ e.entry := by
      rw [targets, List.mem_append, List.mem_singleton]
      exact ⟨fun hm => ⟨.inl hm, nodup.2.2 m hm _ (List.mem_singleton_self _)⟩, fun ⟨hm, ne⟩ => hm.resolve_right ne⟩
    have keeps : Response.Keeps (Response.landed (s.dram.readExtent e.cell e.extent)) :=
      ⟨fun _ => rfl, fun _ => rfl, fun _ => rfl⟩
    have reads : Names (s.rfe.responses.map (changeEntry e.entry (Response.landed (s.dram.readExtent e.cell e.extent))))
        .waiting (s.dcc.readQ.map (fun e => e.entry)) :=
      h.reads.without (hasEntry_changed_left (fun _ => rfl) nofun) nodup.1 left
    have stands := waits
    obtain ⟨r, hr, id, -⟩ := stands
    rw [State.completeRead_lands hr id]
    exact
      { labels := h.labels.map (keeps.changeEntry _)
        ready := h.ready.concat (hasEntry_changed_entered keeps (fun _ => rfl) waits)
          (h.ready.not_mem_of_other h.labels.ids waits nofun)
        reads := reads.perm (.of_eq (List.append_nil _))
        sending := h.sending.without_other h.labels.ids waits nofun (hasEntry_changed_left (fun _ => rfl) nofun)
        order := h.order }

/-- The completion of an operation that is no read. -/
theorem State.InStep.complete (h : s.InStep) {op : Operation} (hop : s.operation? = some op)
    (other : ∀ e dropped, op ≠ .read e dropped) : s.freeChannel.InStep := by
  obtain ⟨f, inFlight, rfl⟩ := s.inFlight_of_operation? hop
  refine h.freeChannel ?_
  rw [inFlight, Option.bind_some]
  unfold InFlight.target?
  cases e : f.op with
  | read r dropped => exact absurd e (other r dropped)
  | write | retirement | refresh => rfl

/-- The entry of the frame under way goes, and so does its tag (R152). -/
theorem State.InStep.sendResponse (h : s.InStep) {n : Nat} {frame : List Byte} {r : Response}
    (tx : s.clp.tx = .readData n frame) (entry : s.rfe.responses.find? (fun x => x.id == n) = some r) :
    (s.sendResponse r).InStep := by
  have hr := List.mem_of_find?_eq_some entry
  have id : r.id = n := by simpa using List.find?_some entry
  have list : s.clp.tx.entry?.toList = [n] := by rw [tx]; rfl
  have sends : HasEntry s.rfe.responses r.id .sending :=
    (h.sending.mem _).mp (by rw [list, id]; exact List.mem_cons_self)
  have freed : (s.freeResponse r).InStep :=
    { labels := h.labels.filter hr
      ready := h.ready.without_other h.labels.ids sends nofun fun _ => hasEntry_filter
      reads := h.reads.without_other h.labels.ids sends nofun fun _ => hasEntry_filter
      sending := h.sending.without (fun _ => hasEntry_filter) List.nodup_nil fun m => by
        rw [list, id, List.mem_singleton]
        exact ⟨nofun, fun hm => absurd hm.1 hm.2⟩
      order := h.order }
  unfold State.sendResponse
  split
  · exact freed.sendClaim _
  · exact freed

/-! ### The commands -/

theorem execReadCompletion_inStep (e : execReadCompletion s = .next t) (h : s.InStep) : t.InStep := by
  unfold execReadCompletion at e
  split at e <;> cases e
  · exact (h.completeRead ‹_›).settle
  all_goals exact h

theorem execWriteCompletion_inStep (e : execWriteCompletion s = .next t) (h : s.InStep) : t.InStep := by
  unfold execWriteCompletion at e
  split at e <;> cases e
  · rename_i op
    have free := h.complete op fun _ _ => nofun
    exact State.InStep.settle { free with }
  all_goals exact h

theorem execRetirementCompletion_inStep (e : execRetirementCompletion s = .next t) (h : s.InStep) : t.InStep := by
  unfold execRetirementCompletion at e
  split at e <;> cases e
  · rename_i op
    have free := h.complete op fun _ _ => nofun
    refine State.InStep.settle (State.InStep.completeRetirement ?_ _)
    exact { free with }
  all_goals exact h

theorem execRefreshCompletion_inStep (e : execRefreshCompletion s = .next t) (h : s.InStep) : t.InStep := by
  unfold execRefreshCompletion at e
  split at e <;> cases e
  · rename_i op
    exact (h.complete op fun _ _ => nofun).settle
  all_goals exact h

/-- The frame under way carries an entry that is there (R151). -/
theorem execResponseSent_inStep (e : execResponseSent s = .next t) (h : s.InStep) : t.InStep := by
  unfold execResponseSent at e
  split at e
  · cases e; exact h
  · cases e; exact h
  rename_i n frame tx
  split at e <;> cases e
  · exact (h.sendResponse tx ‹_›).settle
  · rename_i absent
    obtain ⟨r, hr, id, -⟩ := (h.sending.mem n).mp (by rw [tx]; exact List.mem_cons_self)
    exact absurd (beq_iff_eq.mpr id) (List.find?_eq_none.mp absent r hr)

theorem execCreditFrameSent_inStep (e : execCreditFrameSent s = .next t) (h : s.InStep) : t.InStep := by
  unfold execCreditFrameSent at e
  split at e <;> cases e
  · exact h
  · rename_i frame tx
    have sending := h.sending
    rw [tx] at sending
    exact State.InStep.settle { h with sending := sending }
  · exact h

/-- A command whose event needs a condition keeps the invariant where the event does (log entry 2). -/
theorem State.InStep.ite (h : s.InStep) {p : Prop} [Decidable p] (event : p → t.InStep) :
    (if p then t else s).InStep := by
  split
  · exact event ‹_›
  · exact h

/-- Every command keeps the requests in step. -/
theorem exec_inStep {c : Instr} (e : exec c s = .next t) (h : s.InStep) : t.InStep := by
  cases c with
  | powerOnReset => cases e; exact { State.reset_inStep with }
  | rstnRise | trainingFailure => cases e; exact h.ite fun _ => { h with }
  | laneLock => cases e; exact State.InStep.settle { h with }
  | endOfInit | trainingSuccess | quietTimerExpiry | wakingEnd =>
    cases e; exact h.ite fun _ => State.InStep.settle { h with }
  | laneLockLoss lane =>
    cases e
    refine State.InStep.settle (State.InStep.linkDown ?_)
    exact { h with }
  | linkReset =>
    cases e
    split
    · exact h
    · exact h.linkDown.settle
  | requestFrameArrival frame => cases e; exact h.ite fun _ => (h.receiveFrame frame).settle
  | epochExpiry =>
    cases e
    refine h.ite fun _ => State.InStep.settle ?_
    rw [State.expireEpoch_eq]
    exact { h with }
  | refreshTimerExpiry =>
    cases e
    refine h.ite fun _ => State.InStep.settle ?_
    unfold State.expireRefresh
    split <;> exact { h with }
  | readCompletion => exact execReadCompletion_inStep e h
  | writeCompletion => exact execWriteCompletion_inStep e h
  | retirementCompletion => exact execRetirementCompletion_inStep e h
  | refreshCompletion => exact execRefreshCompletion_inStep e h
  | responseSent => exact execResponseSent_inStep e h
  | creditFrameSent => exact execCreditFrameSent_inStep e h
  | pulseEnd => cases e; exact { h with }
  | _ => cases e; exact h.takeIf _

end

/-- Settles O50: the commands keep the lists of the entries, their labels and the take order. -/
theorem requestsStayConsistent : Obligations.RequestsStayConsistent := by
  intro s t requests e
  have h := State.inStep_iff.mpr requests
  unfold step at e
  split at e
  · cases e; exact requests
  · exact State.inStep_iff.mp (exec_inStep e { h with })

end Sys2Proof.Machine
end

section
/-! PROOFS. What follows an event by itself: the part of it that the channel does, in each of its states, and that
nothing more can follow. Settles O3, O35 and O41. -/

namespace Sys2Proof.Machine

/-! ### What settling leaves -/

/-- The state with everything that settling can move put aside. -/
def State.apart (s : State) : State :=
  { s with
    clp := { LinkPort.reset with lanes := s.clp.lanes }
    rfe := { s.rfe with ready := [], responses := s.rfe.responses.map (fun r => { r with state := .ready }) }
    dcc := { Channel.reset with
      nextSeq := s.dcc.nextSeq, quietDelay := s.dcc.quietDelay, quietTimer := s.dcc.quietTimer
      refreshInterval := s.dcc.refreshInterval }
    hst := { s.hst with slots := s.hst.slots.map (fun x => { x with state := .held }) } }

/-- What is not put aside is what the statements say that settling leaves. -/
theorem State.settleKeeps_of_apart {s t : State} (h : t.apart = s.apart) : s.SettleKeeps t :=
  ⟨congrArg (·.rstnLow) h, congrArg (·.capacity) h, congrArg (·.rings) h, congrArg (·.poolFree) h, congrArg (·.sje) h,
    congrArg (·.fanInWindow) h, congrArg (·.swu) h, congrArg (·.dram) h, congrArg (·.alerts) h, congrArg (·.counters) h,
    congrArg (·.pending) h, congrArg (·.rfe.rq) h, congrArg (·.rfe.tags) h, congrArg (·.clp.lanes) h,
    congrArg (·.dcc.nextSeq) h, congrArg (·.dcc.quietDelay) h, congrArg (·.dcc.quietTimer) h,
    congrArg (·.dcc.refreshInterval) h, congrArg (·.hst.flush) h, congrArg (·.hst.holdEnable) h,
    congrArg (·.hst.lowMark) h, congrArg (·.hst.highMark) h, congrArg (·.hst.ageLimit) h, congrArg (·.hst.slots) h,
    congrArg (·.rfe.responses) h⟩

theorem State.startTraining_apart (s : State) : s.startTraining.apart = s.apart := by
  rcases s.startTraining_cases with h | ⟨-, -, -, h⟩ <;> rw [h]
  rfl

theorem State.wake_apart (s : State) : s.wake.apart = s.apart := by
  rcases s.wake_cases with h | ⟨-, h⟩ <;> rw [h]
  rfl

theorem State.enterQuiet_apart (s : State) : s.enterQuiet.apart = s.apart := by
  rcases s.enterQuiet_cases with h | ⟨-, -, h⟩ <;> rw [h]
  rfl

/-- An operation that begins moves nothing of the channel that is put aside. -/
theorem State.apart_of_begins {s : State} {d : Channel} (keeps : s.dcc.BeginKeeps d) :
    State.apart { s with dcc := d } = s.apart := by
  unfold State.apart
  rw [keeps.nextSeq, keeps.quietDelay, keeps.quietTimer, keeps.refreshInterval]

/-- The choice of a retirement moves the state of its slot alone (R112). -/
theorem State.choosing_apart (s : State) (x : Slot) (r : Retirement) : (s.choosing x r).apart = s.apart := by
  have slots : (s.choosing x r).hst.slots.map (fun x => { x with state := .held }) =
      s.hst.slots.map (fun x => { x with state := .held }) := by
    change (s.hst.slots.map _).map _ = _
    rw [List.map_map]
    refine List.map_congr_left fun y _ => ?_
    dsimp only [Function.comp]
    split <;> rfl
  unfold State.apart
  rw [slots]
  rfl

theorem State.arbitrate_apart (s : State) : s.arbitrate.apart = s.apart := by
  rcases s.arbitrate_cases with h | ⟨-, -, ⟨-, h⟩ | ⟨u, -, -, h⟩ | ⟨e, -, h⟩ | ⟨w, ws, -, -, h⟩⟩ <;> rw [h]
  · rfl
  · rcases s.retire_cases u with ⟨r, -, h⟩ | ⟨x, r, -, -, -, -, -, h⟩ | ⟨-, -, h⟩ <;> rw [h]
    · exact State.apart_of_begins (s.dcc.beginRetirement_keeps r)
    · exact (State.apart_of_begins (s := s.choosing x r) (Channel.beginRetirement_keeps _ r)).trans
        (s.choosing_apart x r)
  · exact State.apart_of_begins (s.dcc.beginRead_keeps e)
  · exact State.apart_of_begins (s.dcc.beginWrite_keeps w)

theorem State.transmit_apart (s : State) : s.transmit.apart = s.apart := by
  rcases s.transmit_cases with h | ⟨-, -, ⟨-, h⟩ | ⟨n, rest, -, h⟩⟩ <;> rw [h]
  · rfl
  rcases s.startResponse_cases n rest with h | ⟨r, -, -, h⟩ <;> rw [h]
  have responses : (s.rfe.responses.map (fun r => if r.id = n then { r with state := .sending } else r)).map
      (fun r => { r with state := .ready }) = s.rfe.responses.map (fun r => { r with state := .ready }) := by
    rw [List.map_map]
    refine List.map_congr_left fun y _ => ?_
    dsimp only [Function.comp]
    split <;> rfl
  unfold State.apart
  dsimp only
  rw [responses]

/-- Settling moves the states of the link, the channel, the transmitter, the entries and the slots alone. -/
theorem State.settle_settleKeeps (s : State) : s.SettleKeeps s.settle := by
  unfold State.settle
  apply State.settleKeeps_of_apart
  rw [State.transmit_apart, State.enterQuiet_apart, State.arbitrate_apart, State.wake_apart,
    State.startTraining_apart]

/-! ### The transmitter -/

section
variable (s : State)

/-- The transmitter's choice moves the link port, the entries and the ready order alone. -/
theorem State.transmit_eq : s.transmit = { s with clp := s.transmit.clp, rfe := s.transmit.rfe } := by
  rcases s.transmit_cases with h | ⟨-, -, ⟨-, h⟩ | ⟨n, rest, -, h⟩⟩ <;> rw [h]
  rcases s.startResponse_cases n rest with h | ⟨r, -, -, h⟩ <;> rw [h]

@[simp] theorem State.transmit_dcc : s.transmit.dcc = s.dcc := by rw [s.transmit_eq]
@[simp] theorem State.transmit_hst : s.transmit.hst = s.hst := by rw [s.transmit_eq]

theorem State.transmit_link : s.transmit.clp = { s.clp with
    owed := s.transmit.clp.owed, tx := s.transmit.clp.tx, lastWasCredit := s.transmit.clp.lastWasCredit } := by
  rcases s.transmit_cases with h | ⟨-, -, ⟨-, h⟩ | ⟨n, rest, -, h⟩⟩ <;> rw [h]
  rcases s.startResponse_cases n rest with h | ⟨r, -, -, h⟩ <;> rw [h]

@[simp] theorem State.transmit_rq : s.transmit.rfe.rq = s.rfe.rq := by
  rcases s.transmit_cases with h | ⟨-, -, ⟨-, h⟩ | ⟨n, rest, -, h⟩⟩ <;> rw [h]
  rcases s.startResponse_cases n rest with h | ⟨r, -, -, h⟩ <;> rw [h]

variable {s}

theorem State.transmit_of_busy (h : ¬(s.clp.state = .up ∧ s.clp.tx = .idle)) : s.transmit = s := by
  unfold State.transmit
  rw [if_neg h]

/-- A frame that starts keeps the transmitter from the next one. -/
theorem State.transmit_transmit (s : State) : s.transmit.transmit = s.transmit := by
  have started : s.transmit = s ∨ s.transmit.clp.tx ≠ .idle := by
    rcases s.transmit_cases with h | ⟨-, -, ⟨-, h⟩ | ⟨n, rest, -, h⟩⟩ <;> rw [h]
    · exact .inl rfl
    · exact .inr nofun
    · rcases s.startResponse_cases n rest with h | ⟨r, -, -, h⟩ <;> rw [h]
      · exact .inl rfl
      · exact .inr nofun
  rcases started with h | h
  · rw [h, h]
  · exact State.transmit_of_busy fun idle => h idle.2

/-- A transmitter that stays idle in UP has no credit and no entry to send (R151). -/
theorem State.transmit_idle (entries : s.EntriesOk) (up : s.clp.state = .up) (idle : s.transmit.clp.tx = .idle) :
    s.transmit.clp.owed = 0 ∧ s.transmit.rfe.ready = [] := by
  by_cases free : s.clp.tx = .idle
  · unfold State.transmit at idle ⊢
    rw [if_pos ⟨up, free⟩] at idle ⊢
    split at idle
    · exact absurd idle nofun
    cases ready : s.rfe.ready with
    | cons n rest =>
      obtain ⟨-, -, -, listed, -⟩ := entries
      obtain ⟨r, hr, id, -⟩ := listed n (by rw [ready]; exact List.mem_cons_self)
      rw [ready] at idle
      dsimp only at idle
      unfold State.startResponse at idle
      cases found : s.rfe.responses.find? (fun r => r.id == n) with
      | none => exact absurd (beq_iff_eq.mpr id) (List.find?_eq_none.mp found r hr)
      | some q => rw [found] at idle; exact absurd idle nofun
    | nil =>
      rw [ready] at idle
      dsimp only at idle
      split at idle
      · exact absurd idle nofun
      · rename_i notCredit owes
        rw [if_neg notCredit]
        dsimp only
        rw [if_neg owes]
        exact ⟨by omega, ready⟩
  · rw [State.transmit_of_busy fun h => free h.2] at idle
    exact absurd idle free

end

/-! ### The arbiter -/

section
variable {s : State}

theorem State.retirementRank_eq_none :
    s.retirementRank = .none ↔ s.urgency = .none ∧ ∀ r ∈ s.dcc.inHand, r.urgency = .none := by
  have higher (a b : Urgency) : a.higher b = .none ↔ b = .none ∧ a = .none := by cases a <;> cases b <;> decide
  unfold State.retirementRank
  cases s.dcc.inHand with
  | none => simp
  | some r => simp [higher]

/-- The arbiter finds nothing to do exactly where there is no DRAM work, no backlog and no retirement in hand that was
chosen for an urgency (R128). -/
theorem State.choose_eq_nothing :
    s.choose = .nothing ↔ ¬s.HasDramWork ∧ s.dcc.backlog = 0 ∧ ∀ r ∈ s.dcc.inHand, r.urgency = .none := by
  have held : (∃ x ∈ s.hst.slots, x.state = .held) ↔ s.urgency ≠ .none := State.urgency_ne_none.symm
  unfold State.HasDramWork
  rw [held]
  constructor
  · intro h
    obtain ⟨e, -⟩ | ⟨u, e, -⟩ | ⟨r, e, -⟩ | ⟨w, ws, e, -⟩ | ⟨-, rank, backlog, writeQ, chosen⟩ := s.choose_cases
    case inr.inr.inr.inr =>
      obtain ⟨urgency, hand⟩ := State.retirementRank_eq_none.mp rank
      have readQ : s.dcc.readQ = [] := List.eq_nil_iff_forall_not_mem.mpr fun r hr => by
        have := Channel.chosenRead?_eq_none.mp chosen r hr
        simp [Channel.eligible, writeQ] at this
      exact ⟨by simp [readQ, writeQ, urgency], backlog, hand⟩
    all_goals rw [h] at e; cases e
  · rintro ⟨work, backlog, hand⟩
    push Not at work
    obtain ⟨readQ, writeQ, urgency⟩ := work
    have rank := State.retirementRank_eq_none.mpr ⟨urgency, hand⟩
    have chosen : s.dcc.chosenRead? = none := Channel.chosenRead?_eq_none.mpr (by simp [readQ])
    simp [State.choose, State.chooseMiddle, State.chooseLow, rank, chosen, backlog, writeQ]

theorem State.arbitrate_of_free (run : s.dcc.state = .run) (free : s.dcc.inFlight = none) :
    s.arbitrate = s.perform s.choose := if_pos ⟨run, free⟩

theorem State.arbitrate_of_not_free (h : s.dcc.state = .run → s.dcc.inFlight ≠ none) : s.arbitrate = s :=
  if_neg fun free => h free.1 free.2

theorem State.arbitrate_of_nothing (h : s.choose = .nothing) : s.arbitrate = s := by
  unfold State.arbitrate
  rw [h]
  exact ite_self s

theorem Channel.beginRetirement_busy (c : Channel) (r : Retirement) : (c.beginRetirement r).inFlight ≠ none := by
  rcases c.beginRetirement_cases r with ⟨e, -, -, -, b⟩ | ⟨w, -, -, -, b⟩ | ⟨-, -, b⟩ <;> rw [b] <;> exact nofun

/-- A free channel whose arbiter finds something to do is busy with it (R124, R128). -/
theorem State.arbitrate_busy (run : s.dcc.state = .run) (free : s.dcc.inFlight = none) (h : s.choose ≠ .nothing) :
    s.arbitrate.dcc.inFlight ≠ none := by
  rw [State.arbitrate_of_free run free]
  obtain ⟨e, -⟩ | ⟨u, e, rank, urgent⟩ | ⟨r, e, -⟩ | ⟨w, ws, e, -⟩ | ⟨e, -⟩ := s.choose_cases
  case inr.inr.inr.inr => exact absurd e h
  all_goals rw [e]
  case inr.inl =>
    change (s.retire u).dcc.inFlight ≠ none
    rcases s.retire_cases u with ⟨r, -, e⟩ | ⟨x, r, -, -, -, -, -, e⟩ | ⟨hand, held, -⟩
    · rw [e]; exact Channel.beginRetirement_busy _ _
    · rw [e]; exact Channel.beginRetirement_busy _ _
    · have urgency : s.urgency = .none := by unfold State.urgency HoldStore.urgency; rw [held]
      have := State.retirementRank_eq_none.mpr ⟨urgency, by simp [hand]⟩
      exact absurd (rank.symm.trans this) urgent
  all_goals exact nofun

theorem State.arbitrate_state (s : State) : s.arbitrate.dcc.state = s.dcc.state := by
  rcases s.arbitrate_cases with h | ⟨-, -, ⟨-, h⟩ | ⟨u, -, -, h⟩ | ⟨e, -, h⟩ | ⟨w, ws, -, -, h⟩⟩ <;> rw [h]
  · rfl
  · rcases s.retire_cases u with ⟨r, -, h⟩ | ⟨x, r, -, -, -, -, -, h⟩ | ⟨-, -, h⟩ <;> rw [h]
    · exact (s.dcc.beginRetirement_keeps r).state
    · exact (Channel.beginRetirement_keeps _ r).state
  · rfl
  · rfl

/-- The arbiter looks at nothing of the link. -/
theorem State.arbitrate_of_clp (s : State) (clp : LinkPort) :
    State.arbitrate { s with clp := clp } = { s.arbitrate with clp := clp } := by
  have perform : State.perform { s with clp := clp } s.choose = { s.perform s.choose with clp := clp } := by
    cases s.choose with
    | retirement u =>
      unfold State.perform State.retire
      dsimp only
      split
      · rfl
      · split <;> rfl
    | refresh | read | write | nothing => rfl
  by_cases free : s.dcc.state = .run ∧ s.dcc.inFlight = none
  · rw [State.arbitrate_of_free free.1 free.2]
    exact (State.arbitrate_of_free (s := { s with clp := clp }) free.1 free.2).trans perform
  · have busy : s.dcc.state = .run → s.dcc.inFlight ≠ none := fun run idle => free ⟨run, idle⟩
    rw [State.arbitrate_of_not_free busy]
    exact State.arbitrate_of_not_free (s := { s with clp := clp }) busy

/-! ### The channel -/

theorem State.enterQuiet_of_conditions (run : s.dcc.state = .run) (h : s.QuietConditions) : s.enterQuiet =
    { s with dcc := { s.dcc with state := .quiet, banks := Vector.replicate 16 none, refreshTimer := none } } :=
  if_pos ⟨run, State.quietHolds_iff.mpr h⟩

theorem State.enterQuiet_of_not (h : ¬(s.dcc.state = .run ∧ s.QuietConditions)) : s.enterQuiet = s :=
  if_neg fun c => h ⟨c.1, State.quietHolds_iff.mp c.2⟩

/-- In QUIET conditions with no retirement in hand there is nothing to do (R136). -/
theorem State.choose_of_quietConditions (h : s.QuietConditions) (hand : s.dcc.inHand = none) : s.choose = .nothing := by
  obtain ⟨-, -, -, readQ, writeQ, -, slots, backlog⟩ := h
  exact State.choose_eq_nothing.mpr ⟨by simp [readQ, writeQ, slots], backlog, by simp [hand]⟩

/-- What settling does at the channel and its store. -/
def State.settleChannel (s : State) : State := s.wake.arbitrate.enterQuiet

/-- Work wakes a QUIET channel, which then waits for the end of WAKING (R136). -/
theorem State.settleChannel_of_work (quiet : s.dcc.state = .quiet) (work : s.HasDramWork) :
    s.settleChannel = { s with dcc.state := .waking } := by
  unfold State.settleChannel
  rw [State.wake_of_work quiet work, State.arbitrate_of_not_free (s := { s with dcc.state := .waking }) nofun]
  exact State.enterQuiet_of_not (s := { s with dcc.state := .waking }) (fun h => nomatch h.1)

/-- Without work in QUIET, in INIT, in WAKING and with an operation in flight the channel stays. -/
theorem State.settleChannel_still (quiet : ¬(s.dcc.state = .quiet ∧ s.HasDramWork))
    (busy : s.dcc.state = .run → s.dcc.inFlight ≠ none) : s.settleChannel = s := by
  unfold State.settleChannel
  rw [State.wake_of_not quiet, State.arbitrate_of_not_free busy, State.enterQuiet_of_not]
  rintro ⟨run, -, -, -, -, -, free, -⟩
  exact busy run free

/-- Entry into QUIET (R136). -/
theorem State.settleChannel_of_conditions (run : s.dcc.state = .run) (h : s.QuietConditions)
    (hand : s.dcc.inHand = none) : s.settleChannel =
      { s with dcc := { s.dcc with state := .quiet, banks := Vector.replicate 16 none, refreshTimer := none } } := by
  unfold State.settleChannel
  rw [State.wake_of_not (by simp [run]), State.arbitrate_of_nothing (State.choose_of_quietConditions h hand),
    State.enterQuiet_of_conditions run h]

/-- The arbiter's choice keeps a channel out of QUIET. -/
theorem State.settleChannel_of_choice (run : s.dcc.state = .run) (free : s.dcc.inFlight = none)
    (h : s.choose ≠ .nothing) : s.settleChannel = s.arbitrate := by
  unfold State.settleChannel
  rw [State.wake_of_not (by simp [run]), State.enterQuiet_of_not]
  rintro ⟨-, -, -, -, -, -, idle, -⟩
  exact State.arbitrate_busy run free h idle

/-- A free channel that does not enter QUIET makes the arbiter's choice (R124). -/
theorem State.settleChannel_of_free (run : s.dcc.state = .run) (free : s.dcc.inFlight = none) (h : ¬s.QuietConditions) :
    s.settleChannel = s.arbitrate := by
  by_cases nothing : s.choose = .nothing
  · unfold State.settleChannel
    rw [State.wake_of_not (by simp [run]), State.arbitrate_of_nothing nothing, State.enterQuiet_of_not fun c => h c.2]
  · exact State.settleChannel_of_choice run free nothing

/-- The channel has nothing more to do by itself (R124, R136). -/
structure State.ChannelRests (s : State) : Prop where
  quiet : ¬(s.dcc.state = .quiet ∧ s.HasDramWork)
  run : ¬(s.dcc.state = .run ∧ s.QuietConditions)
  free : s.dcc.state = .run → s.dcc.inFlight = none →
    ¬s.HasDramWork ∧ s.dcc.backlog = 0 ∧ ∀ r ∈ s.dcc.inHand, r.urgency = .none

theorem State.ChannelRests.settleChannel (h : s.ChannelRests) : s.settleChannel = s := by
  have chosen : s.arbitrate = s := by
    by_cases free : s.dcc.state = .run → s.dcc.inFlight ≠ none
    · exact State.arbitrate_of_not_free free
    · push Not at free
      exact State.arbitrate_of_nothing (State.choose_eq_nothing.mpr (h.free free.1 free.2))
  unfold State.settleChannel
  rw [State.wake_of_not h.quiet, chosen, State.enterQuiet_of_not h.run]

/-- Whatever state the channel is in, it comes to rest. -/
theorem State.settleChannel_rests (s : State) : s.settleChannel.ChannelRests := by
  by_cases work : s.dcc.state = .quiet ∧ s.HasDramWork
  · rw [State.settleChannel_of_work work.1 work.2]
    exact ⟨nofun, nofun, nofun⟩
  by_cases busy : s.dcc.state = .run → s.dcc.inFlight ≠ none
  · rw [State.settleChannel_still work busy]
    refine ⟨work, ?_, fun run free => absurd free (busy run)⟩
    rintro ⟨run, -, -, -, -, -, free, -⟩
    exact busy run free
  push Not at busy
  obtain ⟨run, free⟩ := busy
  by_cases nothing : s.choose = .nothing
  · by_cases conditions : s.QuietConditions
    · have rests : s.settleChannel = s.enterQuiet := by
        unfold State.settleChannel
        rw [State.wake_of_not work, State.arbitrate_of_nothing nothing]
      rw [rests, State.enterQuiet_of_conditions run conditions]
      exact ⟨fun h => (State.choose_eq_nothing.mp nothing).1 h.2, nofun, nofun⟩
    · rw [State.settleChannel_of_free run free conditions, State.arbitrate_of_nothing nothing]
      exact ⟨work, fun h => conditions h.2, fun _ _ => State.choose_eq_nothing.mp nothing⟩
  · have busy := State.arbitrate_busy run free nothing
    rw [State.settleChannel_of_choice run free nothing]
    refine ⟨fun h => ?_, ?_, fun _ idle => absurd idle busy⟩
    · rw [s.arbitrate_state, run] at h
      cases h.1
    · rintro ⟨-, -, -, -, -, -, idle, -⟩
      exact busy idle

/-- The channel's rest is a matter of the channel, the slots and the Request Queue. -/
theorem State.ChannelRests.of_same {t : State} (h : s.ChannelRests) (dcc : t.dcc = s.dcc) (hst : t.hst = s.hst)
    (rq : t.rfe.rq = s.rfe.rq) : t.ChannelRests := by
  refine ⟨?_, ?_, ?_⟩
  · rw [State.HasDramWork, dcc, hst]; exact h.quiet
  · rw [State.QuietConditions, dcc, hst, rq]; exact h.run
  · rw [State.HasDramWork, dcc, hst]; exact h.free

/-- The channel looks at nothing of the link. -/
theorem State.settleChannel_of_clp (s : State) (clp : LinkPort) :
    State.settleChannel { s with clp := clp } = { s.settleChannel with clp := clp } := by
  have wake : State.wake { s with clp := clp } = { s.wake with clp := clp } := by
    by_cases h : s.dcc.state = .quiet ∧ s.HasDramWork
    · rw [State.wake_of_work h.1 h.2]
      exact State.wake_of_work (s := { s with clp := clp }) h.1 h.2
    · rw [State.wake_of_not h]
      exact State.wake_of_not (s := { s with clp := clp }) h
  have enterQuiet (t : State) : State.enterQuiet { t with clp := clp } = { t.enterQuiet with clp := clp } := by
    by_cases h : t.dcc.state = .run ∧ t.QuietConditions
    · rw [State.enterQuiet_of_conditions h.1 h.2]
      exact State.enterQuiet_of_conditions (s := { t with clp := clp }) h.1 h.2
    · rw [State.enterQuiet_of_not h]
      exact State.enterQuiet_of_not (s := { t with clp := clp }) h
  unfold State.settleChannel
  rw [wake, State.arbitrate_of_clp, enterQuiet]

theorem State.settleChannel_rfe (s : State) : s.settleChannel.rfe = s.rfe := by
  unfold State.settleChannel
  calc s.wake.arbitrate.enterQuiet.rfe = s.wake.arbitrate.rfe := by
        rcases s.wake.arbitrate.enterQuiet_cases with h | ⟨-, -, h⟩ <;> rw [h]
    _ = s.wake.rfe := by rw [s.wake.arbitrate_eq]
    _ = s.rfe := by rcases s.wake_cases with h | ⟨-, h⟩ <;> rw [h]

/-! ### The whole -/

/-- The link starts training where it may (R140, R141). -/
theorem State.startTraining_of_locked (h : s.clp.state = .down ∧ s.dcc.state ≠ .init ∧ s.clp.lanes = 0xFF) :
    s.startTraining = { s with clp := { s.clp with state := .training, attempt := 1 } } :=
  if_pos ⟨h.1, h.2.1, beq_iff_eq.mpr h.2.2⟩

theorem State.startTraining_of_not (h : ¬(s.clp.state = .down ∧ s.dcc.state ≠ .init ∧ s.clp.lanes = 0xFF)) :
    s.startTraining = s :=
  if_neg fun c => h ⟨c.1, c.2.1, beq_iff_eq.mp c.2.2⟩

theorem State.settle_eq (s : State) :
    s.settle = State.transmit { s.settleChannel with clp := s.startTraining.clp } := by
  have trained : s.startTraining = { s with clp := s.startTraining.clp } := by
    rcases s.startTraining_cases with h | ⟨-, -, -, h⟩ <;> rw [h]
  rw [← State.settleChannel_of_clp, ← trained]
  rfl

theorem State.settle_dcc (s : State) : s.settle.dcc = s.settleChannel.dcc := by rw [s.settle_eq, State.transmit_dcc]
theorem State.settle_hst (s : State) : s.settle.hst = s.settleChannel.hst := by rw [s.settle_eq, State.transmit_hst]

/-- The states of the link and of its lanes are those that the start of training leaves. -/
theorem State.settle_link (s : State) : s.settle.clp.state = s.startTraining.clp.state ∧
    s.settle.clp.attempt = s.startTraining.clp.attempt ∧ s.settle.clp.lanes = s.startTraining.clp.lanes := by
  rw [s.settle_eq, State.transmit_link]
  exact ⟨rfl, rfl, rfl⟩

theorem State.settle_channelRests (s : State) : s.settle.ChannelRests := by
  refine s.settleChannel_rests.of_same s.settle_dcc s.settle_hst ?_
  rw [s.settle_eq, State.transmit_rq]

/-- A link in training sends nothing, and nothing else of it moves (R140). -/
theorem State.settle_of_locked (h : s.clp.state = .down ∧ s.dcc.state ≠ .init ∧ s.clp.lanes = 0xFF) :
    s.settle.clp = { s.clp with state := .training, attempt := 1 } := by
  rw [s.settle_eq, State.transmit_of_busy, State.startTraining_of_locked h]
  rw [State.startTraining_of_locked h]
  exact nofun

/-- No link that may start training is left in DOWN (R140). -/
theorem State.settle_not_locked (s : State) :
    ¬(s.settle.clp.state = .down ∧ s.settle.dcc.state ≠ .init ∧ s.settle.clp.lanes = 0xFF) := by
  obtain ⟨state, -, lanes⟩ := s.settle_link
  rw [state, lanes, Ne, s.settle_chooses.init]
  by_cases h : s.clp.state = .down ∧ s.dcc.state ≠ .init ∧ s.clp.lanes = 0xFF
  · rw [State.startTraining_of_locked h]
    exact nofun
  · rw [State.startTraining_of_not h]
    exact h

theorem State.settle_settle (s : State) : s.settle.settle = s.settle := by
  have rests : s.settle.settle = s.settle.settleChannel.transmit := by
    rw [s.settle.settle_eq, State.startTraining_of_not s.settle_not_locked, ← State.settleChannel_of_clp]
  rw [rests, s.settle_channelRests.settleChannel]
  rw [s.settle_eq, State.transmit_transmit]

/-- An idle transmitter in UP has nothing to send (R151). -/
theorem State.settle_idle (entries : s.EntriesOk) (up : s.settle.clp.state = .up) (idle : s.settle.clp.tx = .idle) :
    s.settle.clp.owed = 0 ∧ s.settle.rfe.ready = [] := by
  rw [s.settle_link.1] at up
  rw [s.settle_eq] at idle ⊢
  refine State.transmit_idle ?_ up idle
  change State.EntriesOk { s.settleChannel with clp := s.startTraining.clp }
  unfold State.EntriesOk
  dsimp only
  rw [s.settleChannel_rfe]
  exact entries

end

/-- Settles O41: the channel's part by the state it is in, and that each part of settling has come to its end. -/
theorem eventsSettle : Obligations.EventsSettle := by
  intro s t c trains
  have rests : t.ChannelRests := s.settle_channelRests
  have parts {u : State} (h : s.settleChannel = u) : t.dcc = u.dcc ∧ t.hst = u.hst :=
    ⟨h ▸ s.settle_dcc, h ▸ s.settle_hst⟩
  refine ⟨s.settle_settleKeeps, s.settle_settle, State.settle_of_locked, fun h => ?_, fun quiet => ?_, fun h => ?_,
    fun run conditions hand => ?_, fun run free conditions => parts (State.settleChannel_of_free run free conditions),
    s.settle_not_locked, rests.quiet, rests.run, rests.free, State.settle_idle⟩
  · obtain ⟨state, attempt, -⟩ := s.settle_link
    rw [State.startTraining_of_not h] at state attempt
    exact ⟨state, attempt⟩
  · by_cases work : s.HasDramWork
    · obtain ⟨dcc, hst⟩ := parts (State.settleChannel_of_work quiet work)
      exact ⟨hst, fun _ => dcc, absurd work⟩
    · obtain ⟨dcc, hst⟩ := parts (State.settleChannel_still (fun h => work h.2) fun run => nomatch quiet.symm.trans run)
      exact ⟨hst, fun h => absurd h work, fun _ => dcc⟩
  · refine parts (State.settleChannel_still ?_ ?_)
    · rintro ⟨quiet, -⟩
      rcases h with h | h | ⟨-, h⟩
      · cases quiet.symm.trans h
      · cases quiet.symm.trans h
      · exact h quiet
    · intro run
      rcases h with h | h | ⟨h, -⟩
      · cases run.symm.trans h
      · cases run.symm.trans h
      · exact h
  · exact (parts (State.settleChannel_of_conditions run conditions hand)).symm

/-! ### The quiet timer (R136) -/

theorem QuietTimer.isRunning_iff {q : QuietTimer} : q.isRunning = true ↔ ∃ us, q = .running us := by
  cases q <;> simp [QuietTimer.isRunning]

/-- Settling takes a channel in RUN into QUIET in its conditions alone. -/
theorem State.settle_run {s : State} (run : s.dcc.state = .run) (h : ¬s.QuietConditions) :
    s.settle.dcc.state = .run := by
  rw [s.settle_dcc]
  by_cases free : s.dcc.inFlight = none
  · rw [State.settleChannel_of_free run free h, s.arbitrate_state, run]
  · rw [State.settleChannel_still (fun quiet => nomatch run.symm.trans quiet.1) fun _ => free, run]

/-- Settles O35: the settling of the state with the expired timer, by the state of its channel. -/
theorem quietTimerExpirySettlesTheExpiredTimer : Obligations.QuietTimerExpirySettlesTheExpiredTimer := by
  intro s expired c others
  refine ⟨fun stopped => ?_, fun us running => ⟨?_, expired.settle_settleKeeps, fun run rest hand => ?_,
    fun run rest => ?_, fun notRun quiet => ?_⟩⟩
  · have idle : ¬s.dcc.quietTimer.isRunning = true := by
      rw [QuietTimer.isRunning_iff]
      exact fun ⟨us, h⟩ => stopped us h
    exact congrArg _ (if_neg idle)
  · exact congrArg _ (if_pos (QuietTimer.isRunning_iff.mpr ⟨us, running⟩))
  · obtain ⟨delay, rest⟩ := rest
    rw [expired.settle_hst, expired.settle_dcc,
      State.settleChannel_of_conditions (s := expired) run ⟨delay, rfl, rest⟩ hand]
    exact ⟨rfl, rfl⟩
  · exact State.settle_run (s := expired) run fun ⟨delay, _, conditions⟩ => rest ⟨delay, conditions⟩
  · rw [expired.settle_hst, expired.settle_dcc,
      State.settleChannel_still (s := expired) quiet fun run => absurd run notRun]
    exact ⟨rfl, rfl⟩

/-! ### The ends of INIT and of WAKING (R135) -/

theorem State.enterRun_eq (s : State) : s.enterRun = { s with
    dcc := { s.dcc with
      state := .run, banks := Vector.replicate 16 none, backlog := 0
      refreshInterval := max 10 (min 100 s.swu.stagedRefresh)
      refreshTimer := some (max 10 (min 100 s.swu.stagedRefresh)) } } := rfl

/-- A free channel in RUN with nothing to do and a quiet delay of 0 stays (R124, R136). -/
theorem State.settleChannel_of_nothing {s : State} (run : s.dcc.state = .run) (free : s.dcc.inFlight = none)
    (nothing : s.choose = .nothing) (delay : s.dcc.quietDelay = 0) : s.settleChannel = s := by
  rw [State.settleChannel_of_free run free fun h => h.1 delay, State.arbitrate_of_nothing nothing]

/-- Settling starts the training of a link in DOWN outside INIT alone, where the channel stays. -/
theorem State.settle_of_down {s : State} (down : s.clp.state = .down) (notInit : s.dcc.state ≠ .init)
    (stays : s.settleChannel = s) : s.settle = { s with
      clp := if s.clp.lanes = 0xFF then { s.clp with state := .training, attempt := 1 } else s.clp } := by
  have clp : s.startTraining.clp =
      if s.clp.lanes = 0xFF then { s.clp with state := .training, attempt := 1 } else s.clp := by
    split <;> rename_i h
    · rw [State.startTraining_of_locked ⟨down, notInit, h⟩]
    · rw [State.startTraining_of_not fun c => h c.2.2]
  rw [s.settle_eq, stays, clp]
  refine State.transmit_of_busy ?_
  rintro ⟨up, -⟩
  dsimp only at up
  split at up
  · cases up
  · cases down.symm.trans up

/-- Settles O3: at the end of INIT the channel is as a reset leaves it, so that nothing but training can follow. -/
theorem initAndWakingEndInRun : Obligations.InitAndWakingEndInRun := by
  intro s interval
  refine ⟨fun rstn init clean => ?_, fun waking => congrArg _ (if_pos waking)⟩
  obtain ⟨dcc, slots, down, -, -, -⟩ := clean.2 init
  have event : exec .endOfInit s = .next { s.enterRun with sje.timer := some s.sje.el }.settle :=
    congrArg _ (if_pos ⟨rstn, init⟩)
  rw [event, s.enterRun_eq, dcc]
  refine congrArg _ (State.settle_of_down down nofun (State.settleChannel_of_nothing rfl rfl ?_ rfl))
  exact State.choose_eq_nothing.mpr ⟨by simp [Channel.reset, slots], rfl, nofun⟩

end Sys2Proof.Machine
end

section
/-! PROOFS. The operations of the channel: what the arbiter chooses, in which order it begins operations on one cell,
and what their completions do. Settles O34, O36, O37, O43 and O45. -/

namespace Sys2Proof.Machine

/-! ### Refreshes (R133, R134) -/

/-- Settles O34: the completion frees the channel, and the expiry raises the backlog or counts the overrun. -/
theorem refreshesComeDueAndComplete : Obligations.RefreshesComeDueAndComplete := by
  intro s interval
  have expiry (timer : s.dcc.refreshTimer ≠ none) : exec .refreshTimerExpiry s = .next s.expireRefresh.settle :=
    congrArg _ (if_pos (Option.isSome_iff_ne_none.mpr timer))
  refine ⟨fun ns inFlight => ?_, fun timer below => ?_, fun timer full => ?_⟩
  · have op : s.operation? = some .refresh := by rw [State.operation?, inFlight]; rfl
    simp only [exec, execRefreshCompletion, op, State.freeChannel]
  · rw [expiry timer, State.expireRefresh, if_pos below]
    rfl
  · rw [expiry timer, State.expireRefresh, if_neg (Nat.not_lt.mpr full)]
    rfl

/-! ### The completions of reads and writes (R132, R123) -/

theorem execReadCompletion_of_inFlight {s : State} {e : ReadEntry} {dropped : Bool} {ns : Nat}
    (h : s.dcc.inFlight = some { op := .read e dropped, duration := ns }) :
    exec .readCompletion s = .next (s.completeRead e dropped).settle := by
  have op : s.operation? = some (.read e dropped) := by rw [State.operation?, h]; rfl
  simp only [exec, execReadCompletion, op]

theorem execWriteCompletion_of_inFlight {s : State} {e : WriteEntry} {ns : Nat}
    (h : s.dcc.inFlight = some { op := .write e, duration := ns }) :
    exec .writeCompletion s = .next (s.completeWrite e).settle := by
  have op : s.operation? = some (.write e) := by rw [State.operation?, h]; rfl
  simp only [exec, execWriteCompletion, op]

/-- The bytes of a dropped read are dropped (R132, R137). -/
theorem State.completeRead_dropped (s : State) (e : ReadEntry) : s.completeRead e true = s.freeChannel := by
  simp [State.completeRead]

/-- Settles O36: the entry of a read in flight is one of those that reads fill, so that it stands. -/
theorem readCompletionFillsItsEntry : Obligations.ReadCompletionFillsItsEntry := by
  intro s e ns
  refine ⟨fun inFlight => ?_, fun inFlight requests => ?_⟩
  · rw [execReadCompletion_of_inFlight inFlight, s.completeRead_dropped]
    rfl
  · intro first bytes
    obtain ⟨r, hr, id⟩ := requests.reserved.inFlight _ inFlight e rfl
    have data : s.dram.readExtent e.cell e.extent = bytes := by
      simp only [bytes, first, Dram.readExtent, Dram.bytes]
      cases e.extent <;> rfl
    rw [execReadCompletion_of_inFlight inFlight, State.completeRead_lands hr id, data]
    rfl

/-- Settles O37: the state that the completion leaves holds the bytes of a store. -/
theorem writeCompletionChangesItsBytesOnly : Obligations.WriteCompletionChangesItsBytesOnly := by
  intro s e ns inFlight
  refine ⟨s.completeWrite e, execWriteCompletion_of_inFlight inFlight, rfl, ?_⟩
  intro first a
  have addr : e.payload.addr e.cell = first := by
    simp only [first]
    cases e.payload <;> rfl
  rw [← addr]
  exact s.dram.byte_store e.cell e.payload a

/-! ### The read that rank 3 chooses (R129) -/

/-- The first entry of a list in order is the one that comes before all others. -/
theorem head?_eq_some_iff_least {l : List ReadEntry} (sorted : l.Pairwise (fun a b => a.seq < b.seq)) {e : ReadEntry} :
    l.head? = some e ↔ e ∈ l ∧ ∀ x ∈ l, e.seq ≤ x.seq := by
  cases l with
  | nil => simp
  | cons a l =>
    rw [List.pairwise_cons] at sorted
    rw [List.head?_cons, Option.some.injEq]
    constructor
    · rintro rfl
      refine ⟨List.mem_cons_self, fun x hx => ?_⟩
      rcases List.mem_cons.mp hx with rfl | hx
      · exact le_rfl
      · exact (sorted.1 x hx).le
    · rintro ⟨he, least⟩
      rcases List.mem_cons.mp he with rfl | he
      · rfl
      · exact absurd (sorted.1 e he) (Nat.not_lt.mpr (least a List.mem_cons_self))

/-- The reads that no write to their cell was taken before (R129). -/
def Channel.Eligible (c : Channel) (x : ReadEntry) : Prop :=
  x ∈ c.readQ ∧ ∀ w ∈ c.writeQ, w.cell = x.cell → x.seq ≤ w.seq

theorem Channel.mem_filter_eligible {c : Channel} {x : ReadEntry} : x ∈ c.readQ.filter c.eligible ↔ c.Eligible x := by
  rw [List.mem_filter, Channel.eligible_iff]
  rfl

/-- Preferring a kind keeps the entries that are of it if any of the list is. -/
theorem mem_preferring_iff_forall {test : ReadEntry → Bool} {es : List ReadEntry} {e : ReadEntry} :
    e ∈ preferring test es ↔ e ∈ es ∧ ∀ x ∈ es, test x = true → test e = true := by
  rw [mem_preferring]
  exact and_congr_right fun _ => ⟨fun h x hx t => h ⟨x, hx, t⟩, fun h ⟨x, hx, t⟩ => h x hx t⟩

/-- All entries that are kept are of the kind of one of them. -/
theorem mem_preferring_of_mem {test : ReadEntry → Bool} {es : List ReadEntry} {e x : ReadEntry}
    (he : e ∈ preferring test es) : x ∈ preferring test es ↔ x ∈ es ∧ test x = test e := by
  obtain ⟨mem, kind⟩ := mem_preferring_iff_forall.mp he
  rw [mem_preferring_iff_forall]
  refine and_congr_right fun hx => ⟨fun h => Bool.eq_iff_iff.mpr ⟨kind x hx, h e mem⟩, fun h y hy t => ?_⟩
  rw [h]
  exact kind y hy t

/-- Rank 3 chooses the oldest of the row hits, if there are any, of the boosted reads, if there are any, of the eligible
reads. -/
theorem Channel.chosenRead?_eq_some {c : Channel} (order : c.OrderOk) {e : ReadEntry} :
    c.chosenRead? = some e ↔ c.Eligible e ∧ (∀ x, c.Eligible x → x.boost = true → e.boost = true) ∧
      (∀ x, c.Eligible x → x.boost = e.boost → c.rowHit x.cell = true → c.rowHit e.cell = true) ∧
      ∀ x, c.Eligible x → x.boost = e.boost → (c.rowHit x.cell = true ↔ c.rowHit e.cell = true) → e.seq ≤ x.seq := by
  have sorted := order.1.sublist ((preferring_sublist (fun x => c.rowHit x.cell) _).trans
    ((preferring_sublist (fun x => x.boost) _).trans (List.filter_sublist (p := c.eligible))))
  have first : e ∈ preferring (fun x => x.boost) (c.readQ.filter c.eligible) ↔
      c.Eligible e ∧ ∀ x, c.Eligible x → x.boost = true → e.boost = true := by
    simp only [mem_preferring_iff_forall, Channel.mem_filter_eligible]
  unfold Channel.chosenRead?
  rw [head?_eq_some_iff_least sorted, mem_preferring_iff_forall, first, and_assoc, and_assoc]
  refine and_congr_right fun eligible => and_congr_right fun boosted => ?_
  have class_iff (x : ReadEntry) := mem_preferring_of_mem (x := x) (first.mpr ⟨eligible, boosted⟩)
  simp only [class_iff, Channel.mem_filter_eligible, and_imp]
  refine and_congr_right fun hits => ?_
  have kept : e ∈ preferring (fun x => c.rowHit x.cell)
      (preferring (fun x => x.boost) (c.readQ.filter c.eligible)) := by
    simp only [mem_preferring_iff_forall (test := fun x => c.rowHit x.cell), first, class_iff,
      Channel.mem_filter_eligible, and_imp]
    exact ⟨⟨eligible, boosted⟩, hits⟩
  simp only [mem_preferring_of_mem kept, class_iff, Channel.mem_filter_eligible, and_imp, Bool.coe_iff_coe]

/-! ### The walk of the ranks (R128) -/

/-- Settles O43: the reads of rank 3 by preference and place, and the walk by the tests of its ranks. -/
theorem arbiterWalksTheRanks : Obligations.ArbiterWalksTheRanks := by
  refine ⟨fun _ => rfl, fun c e w => ⟨Channel.access_eq_accessing _ _ _, Channel.access_eq_accessing _ _ _⟩,
    fun c order => ?_, fun s run free => ?_⟩
  · intro eligible hit
    refine ⟨?_, fun e => ?_⟩
    · rw [Channel.chosenRead?_eq_none]
      simp only [Bool.eq_false_iff, Ne, Channel.eligible_iff]
      exact ⟨fun h x hx => h x hx.1 hx.2, fun h x hx hw => h x ⟨hx, hw⟩⟩
    · rw [Channel.chosenRead?_eq_some order]
      simp only [Channel.rowHit_iff]
      rfl
  · intro rank refreshed
    have performs {c : Choice} (h : s.choose = c) : s.arbitrate = s.perform c := by
      rw [State.arbitrate_of_free run free, h]
    refine ⟨fun full => performs (if_pos full), fun below must => ?_, fun below must e chosen => ?_,
      fun below must chosen => ?_⟩
    · exact performs (by rw [State.choose, if_neg (Nat.not_le.mpr below), if_pos must])
    · exact performs (by rw [State.choose, if_neg (Nat.not_le.mpr below), if_neg must, chosen])
    have middle : s.choose = s.chooseMiddle := by
      rw [State.choose, if_neg (Nat.not_le.mpr below), if_neg must, chosen]
    refine ⟨fun four => ?_, fun few w ws writeQ => ?_, fun few writeQ => ?_⟩
    · exact performs (by rw [middle, State.chooseMiddle, if_pos four])
    · exact performs (by rw [middle, State.chooseMiddle, if_neg (Nat.not_le.mpr few), writeQ])
    have low (need : rank ≠ .need) : s.choose = s.chooseLow := by
      rw [middle, State.chooseMiddle, if_neg (Nat.not_le.mpr few), writeQ]
      exact if_neg need
    refine ⟨fun need => ?_, fun need backlog => ?_, fun need zero => ?_⟩
    · refine performs (c := .retirement .need) ?_
      rw [middle, State.chooseMiddle, if_neg (Nat.not_le.mpr few), writeQ]
      exact if_pos need
    · exact performs (by rw [low need, State.chooseLow, if_pos backlog])
    · have noBacklog : ¬1 ≤ s.dcc.backlog := by omega
      rw [performs (low need), State.chooseLow, if_neg noBacklog]
      split <;> rfl

/-! ### Operations on one cell (R129, R130, R153) -/

/-- What begins is a queued read or write before which no other of its cell is queued, a retirement of a cell of which
none is, or a refresh. -/
def Channel.InOrder (c : Channel) : Operation → Prop
  | .read e _ => e ∈ c.readQ ∧ ∀ w ∈ c.writeQ, w.cell = e.cell → e.seq < w.seq
  | .write w => w ∈ c.writeQ ∧ (∀ e ∈ c.readQ, e.cell = w.cell → w.seq < e.seq) ∧
      ∀ v ∈ c.writeQ, v.cell = w.cell → w.seq ≤ v.seq
  | .retirement r => (∀ e ∈ c.readQ, e.cell ≠ r.cell) ∧ ∀ w ∈ c.writeQ, w.cell ≠ r.cell
  | .refresh => True

/-- The first entry of a kind in a list in order comes before all others of the kind. -/
theorem le_of_find?_eq_some {α : Type} {l : List α} {place : α → Nat} {test : α → Bool} {e x : α}
    (sorted : l.Pairwise (fun a b => place a < place b)) (h : l.find? test = some e) (hx : x ∈ l) (t : test x = true) :
    place e ≤ place x := by
  obtain ⟨-, before, after, rfl, others⟩ := List.find?_eq_some_iff_append.mp h
  have first := (List.pairwise_append.mp sorted).2.1
  rcases List.mem_append.mp hx with hx | hx
  · have := others x hx
    simp [t] at this
  · rcases List.mem_cons.mp hx with rfl | hx
    · exact le_rfl
    · exact ((List.pairwise_cons.mp first).1 x hx).le

section
variable {c : Channel} (order : c.OrderOk)
include order

/-- The operation performed for a retirement: of the oldest read and write of its cell the older one (R130). -/
theorem Channel.beginRetirement_inOrder (r : Retirement) :
    ∀ f ∈ (c.beginRetirement r).inFlight, c.InOrder f.op := by
  obtain ⟨reads, writes, -, -, apart⟩ := order
  have read {e x : ReadEntry} (h : c.readQ.find? (fun e => e.cell == r.cell) = some e) (hx : x ∈ c.readQ)
      (same : x.cell = r.cell) : e.seq ≤ x.seq := le_of_find?_eq_some reads h hx (beq_iff_eq.mpr same)
  have write {w v : WriteEntry} (h : c.writeQ.find? (fun w => w.cell == r.cell) = some w) (hv : v ∈ c.writeQ)
      (same : v.cell = r.cell) : w.seq ≤ v.seq := le_of_find?_eq_some writes h hv (beq_iff_eq.mpr same)
  have noRead (h : c.readQ.find? (fun e => e.cell == r.cell) = none) : ∀ e ∈ c.readQ, e.cell ≠ r.cell := by
    simpa using h
  have noWrite (h : c.writeQ.find? (fun w => w.cell == r.cell) = none) : ∀ w ∈ c.writeQ, w.cell ≠ r.cell := by
    simpa using h
  have cell {α : Type} {l : List α} {g : α → Nat} {e : α} (h : l.find? (fun e => g e == r.cell) = some e) :
      e ∈ l ∧ g e = r.cell := ⟨List.mem_of_find?_eq_some h, by simpa using List.find?_some h⟩
  unfold Channel.beginRetirement
  cases hr : c.readQ.find? (fun e => e.cell == r.cell) with
  | none =>
    cases hw : c.writeQ.find? (fun w => w.cell == r.cell) with
    | none =>
      rintro f ⟨⟩
      exact ⟨noRead hr, noWrite hw⟩
    | some w =>
      obtain ⟨mem, same⟩ := cell hw
      rintro f ⟨⟩
      exact ⟨mem, fun e he h => absurd (h.trans same) (noRead hr e he), fun v hv h => write hw hv (h.trans same)⟩
  | some e =>
    obtain ⟨mem, same⟩ := cell hr
    cases hw : c.writeQ.find? (fun w => w.cell == r.cell) with
    | none =>
      rintro f ⟨⟩
      exact ⟨mem, fun w hw' h => absurd (h.trans same) (noWrite hw w hw')⟩
    | some w =>
      obtain ⟨mem', same'⟩ := cell hw
      dsimp only
      split <;> rename_i older <;> rintro f ⟨⟩
      · exact ⟨mem, fun v hv h => older.trans_le (write hw hv (h.trans same))⟩
      · have newer : w.seq < e.seq := lt_of_le_of_ne (Nat.not_lt.mp older) (apart e mem w mem').symm
        exact ⟨mem', fun x hx h => newer.trans_le (read hr hx (h.trans same')),
          fun v hv h => write hw hv (h.trans same')⟩

theorem Channel.chosenRead?_inOrder {e : ReadEntry} (h : c.chosenRead? = some e) (dropped : Bool) :
    c.InOrder (.read e dropped) := by
  obtain ⟨he, eligible⟩ := Channel.chosenRead?_mem h
  exact ⟨he, fun w hw same => lt_of_le_of_ne (Channel.eligible_iff.mp eligible w hw same)
    (order.2.2.2.2 e he w hw)⟩

/-- Where rank 3 finds no read, every read waits for a write, and the oldest write for none. -/
theorem Channel.headWrite_inOrder {w : WriteEntry} {ws : List WriteEntry} (h : c.writeQ = w :: ws)
    (noRead : c.chosenRead? = none) : c.InOrder (.write w) := by
  have first : ∀ v ∈ c.writeQ, w.seq ≤ v.seq := by
    have sorted := order.2.1
    rw [h] at sorted ⊢
    intro v hv
    rcases List.mem_cons.mp hv with rfl | hv
    · exact le_rfl
    · exact ((List.pairwise_cons.mp sorted).1 v hv).le
  refine ⟨by rw [h]; exact List.mem_cons_self, fun e he _ => ?_, fun v hv _ => first v hv⟩
  have waits : ¬∀ v ∈ c.writeQ, v.cell = e.cell → e.seq ≤ v.seq := by
    rw [← Channel.eligible_iff, Channel.chosenRead?_eq_none.mp noRead e he]
    exact Bool.false_ne_true
  push Not at waits
  obtain ⟨v, hv, -, older⟩ := waits
  exact (first v hv).trans_lt older

end

/-- Whatever the arbiter begins is in order at its cell. -/
theorem State.arbitrate_inOrder {s : State} (order : s.dcc.OrderOk) (free : s.dcc.inFlight = none) :
    ∀ f ∈ s.arbitrate.dcc.inFlight, s.dcc.InOrder f.op := by
  rcases s.arbitrate_cases with e | ⟨-, -, ⟨-, e⟩ | ⟨u, -, -, e⟩ | ⟨r, chosen, e⟩ | ⟨w, ws, writeQ, noRead, e⟩⟩ <;>
    rw [e]
  · rw [free]; exact nofun
  · rintro f ⟨⟩; trivial
  · rcases s.retire_cases u with ⟨r, -, e⟩ | ⟨x, r, -, -, -, -, -, e⟩ | ⟨-, -, e⟩ <;> rw [e]
    · exact Channel.beginRetirement_inOrder order r
    · exact Channel.beginRetirement_inOrder (c := { s.dcc with inHand := some r }) order r
    · rw [free]; exact nofun
  · rintro f ⟨⟩; exact Channel.chosenRead?_inOrder order chosen false
  · rintro f ⟨⟩; exact Channel.headWrite_inOrder order writeQ noRead

/-- Settles O45: the operation that begins, by its kind. -/
theorem sameCellOrderIsKept : Obligations.SameCellOrderIsKept := by
  intro s f order _ free inFlight
  have inOrder := State.arbitrate_inOrder order free f inFlight
  refine ⟨fun e dropped op => ?_, fun w op => ?_, fun r op => ?_⟩ <;> rw [op] at inOrder <;> exact inOrder

end Sys2Proof.Machine
end

section
/-! PROOFS. The Cell Link Port: the transmitter's choice and the bytes of its frames, the ends of training, the ways to
DOWN, and the reception of a request frame. Settles O4, O5, O6, O7 and O42. -/

namespace Sys2Proof.Machine

/-! ### The entry with a number (R149) -/

/-- With distinct entry numbers, a search by number finds the entry that has it. -/
theorem find?_response {rs : List Response} {r : Response} {n : Nat} (ids : (rs.map (fun r => r.id)).Nodup)
    (hr : r ∈ rs) (id : r.id = n) : rs.find? (fun r => r.id == n) = some r := by
  have isSome : (rs.find? (fun r => r.id == n)).isSome = true := List.find?_isSome.mpr ⟨r, hr, beq_iff_eq.mpr id⟩
  obtain ⟨q, found⟩ := Option.isSome_iff_exists.mp isSome
  have qid : q.id = n := by simpa using List.find?_some found
  rw [found, List.inj_on_of_nodup_map ids (List.mem_of_find?_eq_some found) hr (qid.trans id.symm)]

/-! ### Check bytes (R178) -/

/-- The bytes of a little-endian number, each by its place. -/
theorem leBytes_eq_map (n v : Nat) : leBytes n v = (List.range n).map (fun i => BitVec.ofNat 8 (v / 256 ^ i)) := by
  induction n generalizing v with
  | zero => rfl
  | succ n ih =>
    rw [leBytes, ih, List.range_succ_eq_map, List.map_cons, List.map_map, pow_zero, Nat.div_one]
    refine congrArg _ (List.map_congr_left fun i _ => ?_)
    rw [Function.comp, Nat.pow_succ', Nat.div_div_eq_div_mul]

theorem withCheckWord_eq (body : List Byte) :
    withCheckWord body = body ++ (List.range 4).map (fun i => BitVec.ofNat 8 (crcWord body / 256 ^ i)) := by
  rw [withCheckWord, leBytes_eq_map]

theorem Status.code_eq_idxOf (x : Status) : x.code = [Status.ok, .range, .tagReused].idxOf x := by cases x <;> rfl

theorem Extent.code_eq (x : Extent) : x.code = if x = .cell then 0 else 1 := by
  cases x with
  | cell => rfl
  | word w => exact (if_neg nofun).symm

/-! ### The transmitter's choice (R151) -/

section
variable {s : State}

/-- The oldest READY entry waits for a CREDIT frame only while credits are owed and the frame before was none. -/
theorem State.transmit_of_ready {n : Nat} {ready : List Nat} (up : s.clp.state = .up) (idle : s.clp.tx = .idle)
    (turn : s.clp.owed = 0 ∨ s.clp.lastWasCredit = true) (listed : s.rfe.ready = n :: ready) :
    s.transmit = s.startResponse n ready := by
  have notCredit : ¬(0 < s.clp.owed ∧ s.clp.lastWasCredit = false) := by
    rintro ⟨owes, last⟩
    rcases turn with owed | credit
    · omega
    · rw [last] at credit; cases credit
  rw [State.transmit, if_pos ⟨up, idle⟩, if_neg notCredit, listed]

theorem State.transmit_of_credit (up : s.clp.state = .up) (idle : s.clp.tx = .idle) (owes : 0 < s.clp.owed)
    (turn : s.clp.lastWasCredit = false ∨ s.rfe.ready = []) : s.transmit = s.startCredit := by
  rw [State.transmit, if_pos ⟨up, idle⟩]
  rcases turn with last | unready
  · exact if_pos ⟨owes, last⟩
  · rw [unready]
    dsimp only
    rw [if_pos owes, ite_self]

theorem State.transmit_of_nothing (owed : s.clp.owed = 0) (unready : s.rfe.ready = []) : s.transmit = s := by
  have owes : ¬0 < s.clp.owed := by omega
  have notCredit : ¬(0 < s.clp.owed ∧ s.clp.lastWasCredit = false) := fun h => owes h.1
  rw [State.transmit, unready, if_neg notCredit]
  dsimp only
  rw [if_neg owes, ite_self]

/-- The READ_DATA frame of an entry starts (R151). -/
theorem State.startResponse_of_entry {n : Nat} {r : Response} (entries : s.EntriesOk) (hr : r ∈ s.rfe.responses)
    (id : r.id = n) (ready : List Nat) : s.startResponse n ready =
      State.updateResponse n (fun r => { r with state := .sending })
        { s with clp.tx := .readData n (readDataFrame r), clp.lastWasCredit := false, rfe.ready := ready } := by
  obtain ⟨ids, -⟩ := entries
  rw [State.startResponse, find?_response ids hr id]

/-- Settling ends with the transmitter's choice, which finds the entries as the event left them and the link as the start
of training leaves it. -/
theorem State.settle_transmits (s : State) :
    ∃ v : State, v.clp = s.startTraining.clp ∧ v.rfe = s.rfe ∧ s.settle = v.transmit :=
  ⟨{ s.settleChannel with clp := s.startTraining.clp }, rfl, s.settleChannel_rfe, s.settle_eq⟩

theorem State.settle_transmits_of_not_down (h : s.clp.state ≠ .down) :
    ∃ v : State, v.clp = s.clp ∧ v.rfe = s.rfe ∧ s.settle = v.transmit := by
  have := s.settle_transmits
  rwa [State.startTraining_of_not fun c => h c.1] at this

/-- In UP an idle transmitter sends owed credits, where the frame before was no CREDIT frame or no entry is READY. -/
theorem State.settle_of_credit (up : s.clp.state = .up) (idle : s.clp.tx = .idle) (owes : 0 < s.clp.owed)
    (turn : s.clp.lastWasCredit = false ∨ s.rfe.ready = []) : s.settle.rfe = s.rfe ∧ s.settle.clp =
      { s.clp with tx := .credit (creditFrame s.clp.owed), owed := 0, lastWasCredit := true } := by
  obtain ⟨v, clp, rfe, settled⟩ := State.settle_transmits_of_not_down (s := s) (by rw [up]; exact nofun)
  rw [← clp] at up idle owes turn ⊢
  rw [← rfe] at turn ⊢
  rw [settled, State.transmit_of_credit up idle owes turn]
  exact ⟨rfl, rfl⟩

end

/-- Settles O42: the transmitter's choice, line by line, in the state that the rest of settling leaves. -/
theorem transmitterChoosesTheNextFrame : Obligations.TransmitterChoosesTheNextFrame := by
  intro s t framed
  refine ⟨fun frame tx => ?_, fun busy => ?_, fun up idle =>
    ⟨fun owes turn => ?_, fun turn n rest r entries ready hr id => ?_, fun owed ready => ?_⟩⟩
  · simp only [exec, execCreditFrameSent, tx]
  · obtain ⟨v, clp, rfe, settled⟩ := s.settle_transmits
    have link : v.clp.tx = s.clp.tx ∧ v.clp.owed = s.clp.owed ∧ v.clp.lastWasCredit = s.clp.lastWasCredit ∧
        (v.clp.state = .up → s.clp.state = .up) := by
      rw [clp]
      rcases s.startTraining_cases with e | ⟨-, -, -, e⟩ <;> rw [e]
      · exact ⟨rfl, rfl, rfl, fun h => h⟩
      · exact ⟨rfl, rfl, rfl, nofun⟩
    obtain ⟨tx, owed, last, wasUp⟩ := link
    have stays : t = v := settled.trans (State.transmit_of_busy fun h =>
      busy.elim (fun notUp => notUp (wasUp h.1)) fun sends => sends (tx.symm.trans h.2))
    rw [stays]
    exact ⟨tx, owed, last, rfe⟩
  · obtain ⟨rfe, clp⟩ := State.settle_of_credit up idle owes turn
    refine ⟨rfe, clp.trans ?_⟩
    rw [creditFrame, withCheckWord_eq]
  · intro status extent
    obtain ⟨v, clp, rfe, settled⟩ := State.settle_transmits_of_not_down (s := s) (by rw [up]; exact nofun)
    have frame : readDataFrame r = framed ([BitVec.ofNat 8 (4 * status + 16 * extent), r.tag, 0, 0] ++ r.data) := by
      rw [readDataFrame, withCheckWord_eq, Status.code_eq_idxOf, Extent.code_eq]
    rw [← clp] at up idle turn ⊢
    unfold State.EntriesOk at entries
    rw [← rfe] at entries ready hr ⊢
    have chosen : t = v.startResponse n rest := settled.trans (State.transmit_of_ready up idle turn ready)
    rw [chosen, State.startResponse_of_entry entries hr id, frame]
    exact ⟨rfl, rfl⟩
  · obtain ⟨v, clp, rfe, settled⟩ := State.settle_transmits_of_not_down (s := s) (by rw [up]; exact nofun)
    rw [← clp] at owed ⊢
    rw [← rfe] at ready ⊢
    have stays : t = v := settled.trans (State.transmit_of_nothing owed ready)
    rw [stays]
    exact ⟨rfl, rfl⟩

/-! ### Training (R140, R141, R143) -/

/-- Settles O5: the 64 credits of a link that enters UP leave as its first frame, since no entry is READY. -/
theorem trainingEndsInUpOrANewAttempt : Obligations.TrainingEndsInUpOrANewAttempt := by
  intro s training
  refine ⟨fun link => ?_, congrArg _ (if_pos training)⟩
  obtain ⟨rfe, idle, -⟩ := link (by rw [training]; exact nofun)
  have unready : s.linkUp.rfe.ready = [] := by rw [State.linkUp_rfe, rfe]; rfl
  obtain ⟨rfe', clp⟩ := State.settle_of_credit (s := s.linkUp) rfl idle (Nat.succ_pos 63) (.inr unready)
  refine ⟨s.linkUp.settle, congrArg _ (if_pos training), s.linkUp.settle_settleKeeps, ?_⟩
  rw [clp, rfe']
  exact ⟨rfl, rfl, rfl, rfl, rfl, rfe⟩

/-- Settles O4: the lanes lock, and settling starts the training of a link that may. -/
theorem laneLockStartsTraining : Obligations.LaneLockStartsTraining := by
  intro lanes s locked t
  refine ⟨rfl, locked.settle_settleKeeps, ?_⟩
  obtain ⟨state, attempt, -⟩ := locked.settle_link
  rw [state, attempt]
  split <;> rename_i h
  · rw [State.startTraining_of_locked h]
  · rw [State.startTraining_of_not h]

/-! ### The ways to DOWN (R137, R140, R154) -/

theorem State.linkDown_of_up {s : State} (up : s.clp.state = .up) : s.linkDown = s.dropLink := by
  rw [State.linkDown, up]

theorem State.linkDown_of_training {s : State} (training : s.clp.state = .training) :
    s.linkDown = { s with clp.state := .down, clp.attempt := 0 } := by
  rw [State.linkDown, training]

theorem State.linkDown_of_down {s : State} (down : s.clp.state = .down) : s.linkDown = s := by
  rw [State.linkDown, down]

/-- A link-reset frame, and the loss of a lane, take the link to DOWN with the lanes as they then are (R140). -/
theorem exec_linkDown {lane : Fin 8} {s u : State} {c : Instr} {lanes : BitVec 8}
    (event : c = .linkReset ∧ lanes = s.clp.lanes ∨
      c = .laneLockLoss lane ∧ lanes = s.clp.lanes &&& ~~~(1#8 <<< lane.val))
    (notDown : s.clp.state ≠ .down) (h : State.linkDown { s with clp.lanes := lanes } = u) :
    exec c s = .next u.settle := by
  rw [← h]
  rcases event with ⟨rfl, rfl⟩ | ⟨rfl, rfl⟩
  · exact congrArg _ (if_neg notDown)
  · rfl

/-- Settles O6: the way to DOWN, by the state of the link. -/
theorem laneLossAndLinkResetLeaveTheLink : Obligations.LaneLossAndLinkResetLeaveTheLink := by
  refine ⟨fun ⟨op, _⟩ => by cases op <;> rfl,
    fun lane s c lanes event => ⟨fun up => ?_, fun training => ?_, fun down => ?_⟩⟩
  · exact exec_linkDown event (by rw [up]; exact nofun) (State.linkDown_of_up (s := { s with clp.lanes := lanes }) up)
  · exact exec_linkDown event (by rw [training]; exact nofun)
      (State.linkDown_of_training (s := { s with clp.lanes := lanes }) training)
  · rcases event with ⟨rfl, -⟩ | ⟨rfl, rfl⟩
    · rw [if_pos rfl]
      exact congrArg _ (if_pos down)
    · rw [if_neg nofun]
      exact congrArg (fun t => Host.Outcome.next (State.settle t))
        (State.linkDown_of_down (s := { s with clp.lanes := clearLane s.clp.lanes lane }) down)

/-! ### The reception of a request frame (R142, R178) -/

theorem requestLength_eq {kind : Nat} : requestLength kind =
    if kind = 0 then 264 else if kind = 1 then 17 else if kind = 2 then 9 else 10 := by
  rcases kind with _ | _ | _ | kind <;> rfl

/-- A frame ends with the check word of the bytes before, least significant byte first (R178). -/
theorem ends_with_crcWord_iff {frame : List Byte} (long : 4 ≤ frame.length) :
    leField frame (frame.length - 4) 4 = crcWord (frame.take (frame.length - 4)) ↔
      ∃ body, frame = body ++ (List.range 4).map (fun i => BitVec.ofNat 8 (crcWord body / 256 ^ i)) := by
  have tail : (frame.drop (frame.length - 4)).length = 4 := by rw [List.length_drop]; omega
  rw [leField, List.take_of_length_le tail.le, leNat_eq_iff tail (crcWord_lt _)]
  constructor
  · intro check
    exact ⟨_, by rw [← check, List.take_append_drop]⟩
  · rintro ⟨body, e⟩
    have before : frame.length - 4 = body.length := by rw [e]; simp
    rw [before]
    conv_lhs => rw [e]
    conv_rhs => rw [e]
    rw [List.drop_left, List.take_left]

/-- When a frame passes its check (R142, R178, log entry 9). -/
theorem framePasses_iff (frame : List Byte) :
    let kind := (byteAt frame 3).toNat / 4 % 4
    framePasses frame = true ↔
      frame.length = (if kind = 0 then 264 else if kind = 1 then 17 else if kind = 2 then 9 else 10) ∧
        ∃ body, frame = body ++ (List.range 4).map (fun i => BitVec.ofNat 8 (crcWord body / 256 ^ i)) := by
  intro kind
  rw [framePasses, Bool.and_eq_true, beq_iff_eq, beq_iff_eq, requestKind_header, requestLength_eq]
  refine and_congr_right fun length => ends_with_crcWord_iff ?_
  rw [length]
  split_ifs <;> decide

/-- Settles O7: the three outcomes of a frame in UP. -/
theorem requestFrameIsQueuedOrDiscarded : Obligations.RequestFrameIsQueuedOrDiscarded := by
  intro frame s kind
  have received (up : s.clp.state = .up) :
      exec (.requestFrameArrival frame) s = .next (s.receiveFrame frame).settle := congrArg _ (if_pos up)
  refine ⟨framePasses_iff frame, fun notUp => congrArg _ (if_neg notUp), fun up fails => ?_, fun up passes full => ?_,
    fun up passes room => ?_⟩
  · rw [received up, State.receiveFrame, decodeFrame, fails]
    rfl
  · rw [received up, State.receiveFrame, decodeFrame, passes]
    exact congrArg (fun t => Host.Outcome.next (State.settle t)) (if_neg (Nat.not_lt.mpr full))
  · rw [received up, State.receiveFrame, decodeFrame, passes]
    exact congrArg (fun t => Host.Outcome.next (State.settle t)) (if_pos room)

end Sys2Proof.Machine
end

section
/-! PROOFS. The class of a cell: its place below CAP, and for a buffer cell the one active region it can lie in. Settles
O9. -/

namespace Sys2Proof.Machine

section
variable {s : State} {cell : Nat} {k : Fin 64}

/-- Two regions with a cell in common overlap (R36). -/
theorem Geometry.overlaps_of_covers {a b : Geometry} (ha : a.covers cell = true) (hb : b.covers cell = true) :
    a.overlaps b = true := by
  obtain ⟨aBase, aStop⟩ := Geometry.covers_iff.mp ha
  obtain ⟨bBase, bStop⟩ := Geometry.covers_iff.mp hb
  rw [Geometry.overlaps, Bool.and_eq_true, decide_eq_true_eq, decide_eq_true_eq]
  exact ⟨aBase.trans_lt bStop, bBase.trans_lt aStop⟩

/-- With active regions apart, the ring of a cell is the active one whose region covers it (R16). -/
theorem State.ringOf?_eq_some (regions : s.RegionsOk) :
    s.ringOf? cell = some k ↔ (s.ring k).state ≠ .off ∧ (s.ring k).active.covers cell = true := by
  refine ⟨State.ringOf?_some, fun ⟨on, covers⟩ => ?_⟩
  obtain ⟨-, apart⟩ := regions
  cases found : s.ringOf? cell with
  | none => exact absurd covers (by rw [State.ringOf?_none found k on]; exact nofun)
  | some j =>
    obtain ⟨onj, coversj⟩ := State.ringOf?_some found
    by_contra other
    have := apart j k (fun e => other (congrArg some e)) onj on
    rw [Geometry.overlaps_of_covers coversj covers] at this
    cases this

/-- A position is a cell of its ring's region (R15). -/
theorem Geometry.covers_of_position? {g : Geometry} {p : Nat} (h : g.position? cell = some p) :
    g.covers cell = true := by
  obtain ⟨inside, e⟩ := Geometry.position?_eq_some.mp h
  rw [Geometry.covers_iff]
  split at e <;> omega

/-- The cells of a region that are no positions are its lead cells (R15). -/
theorem Geometry.lead_iff {g : Geometry} :
    g.covers cell = true ∧ g.position? cell = none ↔ g.base ≤ cell ∧ cell < g.base + g.lead := by
  rw [Geometry.covers_iff]
  unfold Geometry.position? Geometry.firstPosition Geometry.stop
  cases g.direction <;> simp <;> omega

theorem State.ringClass_eq_position (regions : s.RegionsOk) {p : Nat} :
    s.ringClass cell = .position k p ↔ (s.ring k).state ≠ .off ∧ (s.ring k).active.position? cell = some p := by
  refine ⟨State.ringClass_position, fun ⟨on, position⟩ => ?_⟩
  have found := (State.ringOf?_eq_some regions).mpr ⟨on, Geometry.covers_of_position? position⟩
  simp only [State.ringClass, found, position]

theorem State.ringClass_eq_lead (regions : s.RegionsOk) : s.ringClass cell = .lead k ↔
    (s.ring k).state ≠ .off ∧ (s.ring k).active.covers cell = true ∧ (s.ring k).active.position? cell = none := by
  constructor
  · intro lead
    unfold State.ringClass at lead
    split at lead <;> rename_i found
    · cases lead
    · split at lead <;> rename_i position <;> cases lead
      obtain ⟨on, covers⟩ := State.ringOf?_some found
      exact ⟨on, covers, position⟩
  · rintro ⟨on, covers, position⟩
    have found := (State.ringOf?_eq_some regions).mpr ⟨on, covers⟩
    simp only [State.ringClass, found, position]

theorem State.ringClass_eq_other :
    s.ringClass cell = .other ↔ ∀ k, (s.ring k).state ≠ .off → (s.ring k).active.covers cell = false := by
  cases found : s.ringOf? cell with
  | none => simp only [State.ringClass, found, true_iff]; exact State.ringOf?_none found
  | some j =>
    obtain ⟨on, covers⟩ := State.ringOf?_some found
    have notOther : s.ringClass cell ≠ .other := by
      simp only [State.ringClass, found]
      split <;> exact nofun
    refine iff_of_false notOther fun apart => ?_
    rw [apart j on] at covers
    cases covers

end

/-- The class of a cell by its distance from CAP, from below (R145, R157). -/
theorem State.cellClass_eq (s : State) (cell : Nat) : s.cellClass cell =
    if cell < s.capacity.cells - 128 then .buffer
    else if cell < s.capacity.cells - 32 then .report (cell - (s.capacity.cells - 128))
    else if cell < s.capacity.cells then .control (cell - (s.capacity.cells - 32))
    else .outOfRange := by
  have := s.capacity.cells_large
  split_ifs
  · exact State.cellClass_buffer ‹_›
  · exact State.cellClass_report (by omega) ‹_›
  · exact State.cellClass_control (by omega) ‹_›
  · exact State.cellClass_outOfRange (by omega)

/-- Settles O9: the ring of a buffer cell is the one active ring whose region covers it. -/
theorem ringClassFollowsTheGeometry : Obligations.RingClassFollowsTheGeometry := by
  refine ⟨State.cellClass_eq, fun s cell regions below => ⟨State.cellClass_buffer below, fun k p => ?_, fun k => ?_, ?_⟩⟩
  · rw [State.ringClass_eq_position regions, Geometry.position?_eq_some]
  · rw [State.ringClass_eq_lead regions, Geometry.lead_iff]
  · rw [State.ringClass_eq_other]
    refine forall₂_congr fun k _ => ?_
    rw [← Bool.not_eq_true, Geometry.covers_iff, Geometry.stop]
    omega

end Sys2Proof.Machine
end

section
/-! PROOFS. The end of a READ_DATA frame: the entry and its tag go, and a claim acts on its slot. Settles O39. -/

namespace Sys2Proof.Machine

/-- The entry of the READ_DATA frame under way is there to be sent (R151, R152). -/
theorem exec_responseSent {s : State} {n : Nat} {frame : List Byte} {r : Response} (tx : s.clp.tx = .readData n frame)
    (requests : s.RequestsOk) (hr : r ∈ s.rfe.responses) (id : r.id = n) :
    exec .responseSent s = .next (s.sendResponse r).settle := by
  obtain ⟨-, ⟨ids, -⟩, -⟩ := requests
  simp only [exec, execResponseSent, tx, find?_response ids hr id]

/-- Settles O39: the claim acts on its slot in the state that the entry has left, and an elision can end a flush. -/
theorem responseSentActsOnItsClaim : Obligations.ResponseSentActsOnItsClaim := by
  rintro s n frame r tx requests hr rfl sent
  rw [exec_responseSent tx requests hr rfl]
  refine ⟨fun unclaimed => by rw [State.sendResponse, unclaimed]; rfl, fun m x claimed slot => ?_⟩
  intro others elided
  have claims : s.sendResponse r = sent.sendClaim m := by rw [State.sendResponse, claimed]; rfl
  rw [claims]
  rcases State.sendClaim_cases (s := sent) slot with ⟨held, last, acts⟩ | ⟨stays, acts⟩
  · have elides : sent.sendClaim m = elided.checkFlush := acts
    rw [elides]
    refine ⟨fun h => absurd ⟨held, last⟩ (not_and_or.mpr h), fun _ _ goesOn => ?_, fun _ _ flush gone => ?_⟩
    · rcases elided.checkFlush_cases with ⟨flush, gone, -⟩ | ⟨-, e⟩
      · exact absurd gone (goesOn.resolve_left fun h => nomatch flush.symm.trans h)
      · rw [e]
    · rcases elided.checkFlush_cases with ⟨-, -, e⟩ | ⟨goesOn, -⟩
      · rw [e]
      · exact absurd gone (goesOn.resolve_left fun h => nomatch flush.symm.trans h)
  · rw [acts]
    exact ⟨fun _ => rfl, fun held last => absurd ⟨held, last⟩ stays, fun held last => absurd ⟨held, last⟩ stays⟩

end Sys2Proof.Machine
end

section
/-! PROOFS. Requests that are refused, and heads that wait: the answers to a reused tag and to a cell out of range, and the
takes that find no free entry. Settles O16, O22 and O30. -/

namespace Sys2Proof.Machine

/-! ### Refused requests (R146, R147) -/

section
variable {s : State} {c : Instr} {cell : Nat} {tag : Tag} {x : Extent} {rest : List Request}

/-- A read with an entry for it is refused for its tag, and else for a cell out of range (R146, R147). -/
theorem exec_refusedRead
    (head : c = .cellRead ∧ x = .cell ∧ s.rfe.rq = .cellRead cell tag :: rest ∨
      c = .wordRead ∧ ∃ w, x = .word w ∧ s.rfe.rq = .wordRead cell w tag :: rest)
    (room : s.rfe.responses.length < 64) :
    ∃ id, id < 64 ∧ (∀ r ∈ s.rfe.responses, r.id ≠ id) ∧
      (tag ∈ s.rfe.tags → exec c s = .next ((s.popHead rest).takeTagReused id tag x).settle) ∧
      (tag ∉ s.rfe.tags → s.cellClass cell = .outOfRange →
        exec c s = .next ((s.popHead rest).takeRangeRead id tag x).settle) := by
  obtain ⟨id, entry⟩ := FrontEnd.freeEntry?_of_length (f := (s.popHead rest).rfe) room
  obtain ⟨below, unused⟩ := FrontEnd.freeEntry?_spec entry
  refine ⟨id, below, unused, fun used => ?_, fun fresh outside => ?_⟩
  · have used : tag ∈ (s.popHead rest).rfe.tags := used
    rcases head with ⟨rfl, rfl, rq⟩ | ⟨rfl, w, rfl, rq⟩
    · simp only [exec_cellRead rq, State.takeCellRead, entry, if_pos used, Option.elim_some]
    · simp only [exec_wordRead rq, State.takeWordRead, entry, if_pos used, Option.elim_some]
  · have fresh : tag ∉ (s.popHead rest).rfe.tags := fresh
    rcases head with ⟨rfl, rfl, rq⟩ | ⟨rfl, w, rfl, rq⟩
    · simp only [exec_cellRead rq, State.takeCellRead, entry, if_neg fresh, State.popHead_cellClass, outside,
        Option.elim_some]
    · simp only [exec_wordRead rq, State.takeWordRead, entry, if_neg fresh, State.popHead_cellClass, outside,
        Option.elim_some]

/-- A reused tag is counted and flagged, and the read answered at once (R146). -/
theorem State.takeTagReused_popHead (id : Nat) : (s.popHead rest).takeTagReused id tag x =
    State.readyRead rest (readyResponse id tag x .tagReused (zeros x.size))
      { s with
        counters.tagReuses := bump s.counters.tagReuses 1
        alerts := s.alerts.map (AlertLine.raise .linkFault) } := by
  rw [← State.addResponse_popHead (r := readyResponse id tag x .tagReused (zeros x.size)) rfl]
  rfl

/-- A read out of range is counted and flagged, and answered at once (R147). -/
theorem State.takeRangeRead_popHead (id : Nat) : (s.popHead rest).takeRangeRead id tag x =
    State.readyRead rest (readyResponse id tag x .range (zeros x.size)) s.rangeError := by
  rw [← State.addResponse_popHead (r := readyResponse id tag x .range (zeros x.size)) rfl]
  rfl

end

/-- Settles O22: the answer is READY at once in the state where the reuse is counted and flagged. -/
theorem reusedTagsAreRefused : Obligations.ReusedTagsAreRefused := by
  refine ⟨⟨rfl, fun _ => rfl⟩, fun s c cell tag x rest head room used => ?_⟩
  obtain ⟨id, below, unused, refused, -⟩ := exec_refusedRead head room
  refine ⟨id, below, unused, ?_⟩
  rw [refused used, State.takeTagReused_popHead]
  rfl

/-- Settles O16: a write and a read of a cell out of range, each in the state where the request is counted. -/
theorem outOfRangeRequestsAreRefused : Obligations.OutOfRangeRequestsAreRefused := by
  intro s c cell w data tag x rest outside counted
  have outside : s.cellClass cell = .outOfRange := State.cellClass_outOfRange outside
  refine ⟨fun head => ?_, fun head room fresh => ?_⟩
  · have refused : (s.popHead rest).rangeError = counted.afterHead rest := rfl
    rw [← refused]
    rcases head with ⟨rfl, rq⟩ | ⟨rfl, rq⟩
    · simp only [exec_cellWrite rq, State.takeCellWrite, State.popHead_cellClass, outside, Option.elim_some]
    · simp only [exec_wordWrite rq, State.takeWordWrite, State.popHead_cellClass, outside, Option.elim_some]
  · obtain ⟨id, below, unused, -, refused⟩ := exec_refusedRead head room
    refine ⟨id, below, unused, ?_⟩
    rw [refused fresh outside, State.takeRangeRead_popHead]
    rfl

/-! ### Heads that wait (R127, R144) -/

section
variable {s : State} {cell w id : Nat} {tag : Tag} {x : Extent} {data : List Byte} {k : Fin 64} {p : Nat}

/-- A bypass with no free write-queue entry waits (R102, R127). -/
theorem State.takePositionWrite_waits (unheld : s.hst.lookup? cell = none) (full : 32 ≤ s.dcc.writeQ.length)
    (fails : ¬s.WouldAdmit k p data) : s.takePositionWrite k p cell data = none := by
  have outcomes (u : State) : s.takePositionWrite k p cell data ≠ some u := by
    intro e
    rcases State.takePositionWrite_cases e with ⟨x, held, -⟩ | ⟨-, admits, -⟩ | ⟨-, -, room, -⟩
    · rw [unheld] at held; cases held
    · exact fails admits
    · omega
  exact Option.eq_none_iff_forall_ne_some.mpr outcomes

theorem State.takePlainWrite_waits (unheld : s.hst.lookup? cell = none) (full : 32 ≤ s.dcc.writeQ.length) :
    s.takePlainWrite cell data = none := by
  rw [State.takePlainWrite, unheld]
  exact State.queueWrite_eq_none.mpr full

theorem State.takeCellWrite_waits (full : 32 ≤ s.dcc.writeQ.length)
    (need : (s.cellClass cell = .buffer ∧ s.hst.lookup? cell = none) ∧
        (∀ k p, s.ringClass cell = .position k p → ¬s.WouldAdmit k p data) ∨
      ∃ n, s.cellClass cell = .control n) : s.takeCellWrite cell data = none := by
  rcases need with ⟨⟨buffer, unheld⟩, fails⟩ | ⟨n, control⟩
  · rw [State.takeCellWrite, buffer]
    cases ring : s.ringClass cell with
    | position k p => exact State.takePositionWrite_waits unheld full (fails k p ring)
    | lead k => exact State.takePlainWrite_waits unheld full
    | other => exact State.takePlainWrite_waits unheld full
  · rw [State.takeCellWrite, control]
    exact Option.map_eq_none_iff.mpr (State.queueWrite_eq_none.mpr full)

theorem State.takeWordWrite_waits (full : 32 ≤ s.dcc.writeQ.length)
    (need : s.cellClass cell = .buffer ∧ s.hst.lookup? cell = none ∨ ∃ n, s.cellClass cell = .control n) :
    s.takeWordWrite cell w data = none := by
  rcases need with ⟨buffer, unheld⟩ | ⟨n, control⟩
  · rw [State.takeWordWrite, buffer, unheld]
    exact State.queueWrite_eq_none.mpr full
  · rw [State.takeWordWrite, control]
    exact Option.map_eq_none_iff.mpr (State.queueWrite_eq_none.mpr full)

/-- A read of DRAM with no free read-queue entry waits (R127). -/
theorem State.takeDramRead_waits (full : 32 ≤ s.dcc.readQ.length) (h : HeaderRead) (boost : Bool) :
    s.takeDramRead cell id tag x h boost = none := State.queueRead_eq_none.mpr full

theorem State.takeBufferRead_waits (unheld : s.hst.lookup? cell = none) (full : 32 ≤ s.dcc.readQ.length) (h : HeaderRead)
    (boost : Bool) : s.takeBufferRead cell id tag x h boost = none := by
  rw [State.takeBufferRead, unheld]
  exact State.takeDramRead_waits (s := { s with counters.misses := bump s.counters.misses 1 }) full h boost

theorem State.takeBufferCellRead_waits (unheld : s.hst.lookup? cell = none) (full : 32 ≤ s.dcc.readQ.length) :
    s.takeBufferCellRead cell id tag = none := by
  unfold State.takeBufferCellRead
  split
  · rename_i k p _
    have keeps := s.trackRead_keeps k p
    exact State.takeBufferRead_waits (by rw [keeps.hst]; exact unheld) (by rw [keeps.dcc]; exact full) _ _
  · exact State.takeBufferRead_waits unheld full _ _
  · exact State.takeBufferRead_waits unheld full _ _

theorem State.takeCellRead_waits (full : 32 ≤ s.dcc.readQ.length) (fresh : tag ∉ s.rfe.tags)
    (need : s.cellClass cell = .buffer ∧ s.hst.lookup? cell = none ∨ ∃ n, s.cellClass cell = .control n) :
    s.takeCellRead cell tag = none := by
  unfold State.takeCellRead
  cases s.rfe.freeEntry? with
  | none => rfl
  | some id =>
    dsimp only
    rw [if_neg fresh]
    rcases need with ⟨buffer, unheld⟩ | ⟨n, control⟩
    · rw [buffer]; exact State.takeBufferCellRead_waits unheld full
    · rw [control]; exact State.takeDramRead_waits full _ _

theorem State.takeWordRead_waits (full : 32 ≤ s.dcc.readQ.length) (fresh : tag ∉ s.rfe.tags)
    (need : s.cellClass cell = .buffer ∧ s.hst.lookup? cell = none ∨ ∃ n, s.cellClass cell = .control n) :
    s.takeWordRead cell w tag = none := by
  unfold State.takeWordRead
  cases s.rfe.freeEntry? with
  | none => rfl
  | some id =>
    dsimp only
    rw [if_neg fresh]
    rcases need with ⟨buffer, unheld⟩ | ⟨n, control⟩
    · rw [buffer]; exact State.takeBufferRead_waits unheld full _ _
    · rw [control]; exact State.takeDramRead_waits full _ _

/-- With every number in use no entry is FREE (R149). -/
theorem FrontEnd.freeEntry?_of_all {f : FrontEnd} (all : ∀ n, n < 64 → ∃ r ∈ f.responses, r.id = n) :
    f.freeEntry? = none := by
  cases found : f.freeEntry? with
  | none => rfl
  | some n =>
    obtain ⟨below, unused⟩ := FrontEnd.freeEntry?_spec found
    obtain ⟨r, hr, id⟩ := all n below
    exact absurd id (unused r hr)

end

/-- Settles O30: each need that is not met leaves its take without an outcome. -/
theorem headWaitsForItsNeed : Obligations.HeadWaitsForItsNeed := by
  intro s cell w tag data rest unheld control
  refine ⟨fun rq full need => ?_, fun rq full need => ?_, fun rq full fresh need => ?_, fun rq full fresh need => ?_,
    fun all => ⟨fun rq => ?_, fun rq => ?_⟩⟩
  · rw [exec_cellWrite rq, State.takeCellWrite_waits (s := s.popHead rest) full need]; rfl
  · rw [exec_wordWrite rq, State.takeWordWrite_waits (s := s.popHead rest) full need]; rfl
  · rw [exec_cellRead rq, State.takeCellRead_waits (s := s.popHead rest) full fresh need]; rfl
  · rw [exec_wordRead rq, State.takeWordRead_waits (s := s.popHead rest) full fresh need]; rfl
  · rw [exec_cellRead rq, State.takeCellRead, FrontEnd.freeEntry?_of_all (f := (s.popHead rest).rfe) all]; rfl
  · rw [exec_wordRead rq, State.takeWordRead, FrontEnd.freeEntry?_of_all (f := (s.popHead rest).rfe) all]; rfl

end Sys2Proof.Machine
end

section
/-! PROOFS. The control window: the take of a cell or of a word of it, the nine commands named for its words, the words
that stage settings, the soft-reset word and the clear words. Settles O24, O26, O28 and O29. -/

namespace Sys2Proof.Machine

/-! ### The take of a word of the control window (R157 to R159) -/

section
variable {s : State} {n w : Nat} {c : ControlWord} {d : List Byte} {rest : List Request}

/-- The take of a WORD_WRITE of control cell `n`, under a command whose kind its word is. -/
theorem State.takeIf_controlWord {test : ControlWord → List Byte → Bool} (below : n < 32) (word : controlWord n w = c)
    (room : s.dcc.writeQ.length < 32)
    (head : s.rfe.rq = .wordWrite (s.capacity.cells - 32 + n) w d :: rest) (kind : test c d = true) :
    s.takeIf (s.headCarries test) = State.settle
      ((s.queuedWrite rest (s.capacity.cells - 32 + n) (.partialWord w d)).writeControl c d) := by
  subst word
  rw [State.takeIf, State.headCarries_controlWord below head, if_pos kind, State.takeHead_controlWord below room head]

/-- The same take as a WORD_WRITE, whatever the word. -/
theorem exec_wordWrite_controlWord (below : n < 32) (word : controlWord n w = c) (room : s.dcc.writeQ.length < 32)
    (head : s.rfe.rq = .wordWrite (s.capacity.cells - 32 + n) w d :: rest) :
    exec .wordWrite s = .next (State.settle
      ((s.queuedWrite rest (s.capacity.cells - 32 + n) (.partialWord w d)).writeControl c d)) := by
  subst word
  rw [exec_wordWrite head, ← State.takeHead_controlWord below room head, State.takeHead_cons head]
  rfl

end

/-! ### Words that stage settings (R160 to R162, R178) -/

/-- SETTING_WRITE of a ring word from 0 to 5 writes the word to its ring, in the state where the write has joined the
write queue. -/
theorem exec_settingWrite_ringWord {s : State} {k : Fin 64} {j : Nat} {d : List Byte} {rest : List Request}
    (staged : j < 6) (room : s.dcc.writeQ.length < 32)
    (head : s.rfe.rq = .wordWrite (s.capacity.cells - 32 + (1 + k.val / 4)) (8 * (k.val % 4) + j) d :: rest) :
    exec .settingWrite s = .next (State.settle
      ((s.queuedWrite rest (s.capacity.cells - 32 + (1 + k.val / 4)) (.partialWord (8 * (k.val % 4) + j) d)).setRing k
        ((s.ring k).writeWord ⟨j, by omega⟩ d))) := by
  have not6 : (⟨j, by omega⟩ : Fin 7) ≠ 6 := Fin.ne_of_val_ne (Nat.ne_of_lt staged)
  have kind : isSettingWord (.ring k ⟨j, by omega⟩) d = true := bne_iff_ne.mpr not6
  rw [exec, execSettingWrite, State.takeIf_controlWord (by omega) (controlWord_ring k j _) room head kind]
  rfl

/-- Settles O24: device word 0 stages in the windows' settings, and each ring word in its ring. -/
theorem settingWritesAreStaged : Obligations.SettingWritesAreStaged := by
  intro s d rest room
  constructor
  · intro head
    rw [exec, execSettingWrite, State.takeIf_deviceWord room head rfl]
    rfl
  · intro k cell r g stages
    have word (j : Nat) (staged : j < 6) : stages j (r.writeWord ⟨j, by omega⟩ d) :=
      exec_settingWrite_ringWord staged room
    exact ⟨word 0 (by decide), word 1 (by decide), word 2 (by decide), word 3 (by decide), word 4 (by decide),
      word 5 (by decide)⟩

/-! ### The take of a cell of the control window (R157 to R159) -/

theorem exec_cellWrite_controlCell {s : State} {n : Nat} {data : List Byte} {rest : List Request} (below : n < 32)
    (head : s.rfe.rq = .cellWrite (s.capacity.cells - 32 + n) data :: rest) (room : s.dcc.writeQ.length < 32) :
    exec .cellWrite s = .next (State.settle
      ((s.queuedWrite rest (s.capacity.cells - 32 + n) (.full data)).writeControlCell n data)) := by
  have large := s.capacity.cells_large
  have control : s.cellClass (s.capacity.cells - 32 + n) = .control n := by
    rw [State.cellClass_control (by omega) (by omega), Nat.add_sub_cancel_left]
  rw [exec_cellWrite head, State.takeCellWrite, State.popHead_cellClass, control]
  dsimp only
  rw [State.takeControlCell, State.queueWrite_popHead room, Option.map_some, Option.elim_some]

/-! ### Words that are not decoded (R158) -/

theorem deviceWord_plain {w : Nat} (h : 8 ≤ w) : deviceWord w = .plain := by
  obtain ⟨v, rfl⟩ := Nat.exists_eq_add_of_le' h
  rfl

theorem clearWord_plain {w : Nat} (h : 5 ≤ w) : clearWord w = .plain := by
  obtain ⟨v, rfl⟩ := Nat.exists_eq_add_of_le' h
  rfl

/-- A word that is not decoded is one of no record, or word 6 of a ring's. -/
theorem controlWord_undecoded {n w : Nat}
    (h : n = 0 ∧ 8 ≤ w ∨ 1 ≤ n ∧ n ≤ 16 ∧ w % 8 = 6 ∨ n = 17 ∧ 5 ≤ w ∨ 18 ≤ n) :
    controlWord n w = .plain ∨ ∃ k, controlWord n w = .ring k 6 := by
  unfold controlWord
  rcases h with ⟨rfl, hw⟩ | ⟨lo, hi, hw⟩ | ⟨rfl, hw⟩ | hn
  · exact .inl (deviceWord_plain hw)
  · rw [if_neg (by omega), if_pos hi, hw]
    exact .inr ⟨_, rfl⟩
  · exact .inl (clearWord_plain hw)
  · rw [if_neg (by omega), if_neg (by omega), if_neg (by omega)]
    exact .inl rfl

theorem State.writeControl_undecoded {n w : Nat}
    (h : n = 0 ∧ 8 ≤ w ∨ 1 ≤ n ∧ n ≤ 16 ∧ w % 8 = 6 ∨ n = 17 ∧ 5 ≤ w ∨ 18 ≤ n) (d : List Byte) (s : State) :
    s.writeControl (controlWord n w) d = s := by
  rcases controlWord_undecoded h with plain | ⟨k, ring⟩
  · rw [plain]; rfl
  · rw [ring]; exact s.setRing_ring k

/-! ### The commands named for control words (R159, log entry 1) -/

/-- The nine commands, each with the test for the words of its kind. -/
def controlCommands : List (Instr × (ControlWord → List Byte → Bool)) :=
  [(.settingWrite, isSettingWord), (.storeSettingsWrite, isStoreWord), (.quietDelayWrite, isQuietWord),
    (.alertLineWrite, isAlertWord), (.ringEnable, isEnableWord 1), (.ringDisable, isEnableWord 0),
    (.softReset, isSoftResetWord), (.counterClear, isCounterClearWord), (.flagClear, isFlagClearWord)]

/-- Each takes the head where it carries a word of the command's kind. -/
theorem exec_controlCommand {c : Instr} {test : ControlWord → List Byte → Bool} (h : (c, test) ∈ controlCommands)
    (s : State) : exec c s = .next (s.takeIf (s.headCarries test)) := by
  simp only [controlCommands, List.mem_cons, Prod.mk.injEq, List.not_mem_nil, or_false] at h
  rcases h with ⟨rfl, rfl⟩ | ⟨rfl, rfl⟩ | ⟨rfl, rfl⟩ | ⟨rfl, rfl⟩ | ⟨rfl, rfl⟩ | ⟨rfl, rfl⟩ | ⟨rfl, rfl⟩ |
    ⟨rfl, rfl⟩ | ⟨rfl, rfl⟩ <;> rfl

/-- A head that carries a control word is a write, since a read carries none, and so one of the two write commands takes
it (R157). -/
theorem exec_write_of_headCarries {s : State} {test : ControlWord → List Byte → Bool} (h : s.headCarries test = true) :
    exec (if s.headIs Request.isCellWrite then .cellWrite else .wordWrite) s = .next s.takeHead := by
  unfold State.headCarries at h
  split at h
  · cases h
  · rename_i r rest head
    cases r with
    | cellWrite cell data =>
      have isCell : s.headIs Request.isCellWrite = true := by simp only [State.headIs, head, Request.isCellWrite]
      simp only [isCell, if_true, exec, execCellWrite, State.takeIf]
    | wordWrite cell w data =>
      have notCell : s.headIs Request.isCellWrite = false := by simp only [State.headIs, head, Request.isCellWrite]
      have isWord : s.headIs Request.isWordWrite = true := by simp only [State.headIs, head, Request.isWordWrite]
      simp only [notCell, Bool.false_eq_true, if_false, exec, execWordWrite, State.takeIf, isWord, if_true]
    | cellRead cell tag => cases h
    | wordRead cell w tag => cases h

/-- Settles O26: the cell's take, the words without an effect, and the two cases of a command named for a control word. -/
theorem controlCellsDecodeInOrder : Obligations.ControlCellsDecodeInOrder := by
  intro s
  refine ⟨fun n data rest below head room => exec_cellWrite_controlCell below head room,
    fun n w d below _ undecoded => ⟨s.writeControl_undecoded undecoded d, fun rest head room => ?_⟩,
    fun c test command => ⟨fun carries => ?_, fun carries => ?_⟩⟩
  · rw [exec_wordWrite_controlWord below rfl room head, State.writeControl_undecoded undecoded]
  · rw [exec_controlCommand command, exec_write_of_headCarries carries, carries]
    rfl
  · rw [exec_controlCommand command, carries]
    rfl

/-! ### The soft-reset word (R165, R116, R118, R167) -/

section
variable {s : State}

theorem State.writeControl_softReset_one {d : List Byte} (one : leNat d = 1) :
    s.writeControl .softReset d = s.startSoftReset := if_pos one

theorem State.writeControl_softReset_ne {d : List Byte} (not1 : leNat d ≠ 1) : s.writeControl .softReset d = s :=
  if_neg not1

theorem State.startSoftReset_inProgress (h : s.swu.softReset = true) : s.startSoftReset = s := if_pos h

/-- The state in which the flush has started completes it where the store is empty (R118). -/
theorem State.startSoftReset_eq (h : s.swu.softReset = false) :
    s.startSoftReset = { s with swu.softReset := true, hst.flush := true }.checkFlush :=
  if_neg (Bool.eq_false_iff.mp h)

theorem State.startSoftReset_holding (h : s.swu.softReset = false) (holds : s.hst.slots ≠ []) :
    s.startSoftReset = { s with swu.softReset := true, hst.flush := true } := by
  rw [State.startSoftReset_eq h]
  rcases State.checkFlush_cases { s with swu.softReset := true, hst.flush := true } with ⟨-, empty, -⟩ | ⟨-, stays⟩
  · exact absurd empty holds
  · exact stays

theorem State.startSoftReset_empty (h : s.swu.softReset = false) (empty : s.hst.slots = []) :
    s.startSoftReset = s.completeSoftReset := by
  rw [State.startSoftReset_eq h]
  rcases State.checkFlush_cases { s with swu.softReset := true, hst.flush := true } with ⟨-, -, done⟩ | ⟨no | holds, -⟩
  · exact done
  · cases no
  · exact absurd empty holds

/-- SOFT_RESET takes a soft-reset word of 1. -/
theorem exec_softReset {d : List Byte} {rest : List Request} (room : s.dcc.writeQ.length < 32)
    (head : s.rfe.rq = .wordWrite (s.capacity.cells - 32) 7 d :: rest) (one : leNat d = 1) :
    exec .softReset s =
      .next (s.queuedWrite rest (s.capacity.cells - 32) (.partialWord 7 d)).startSoftReset.settle := by
  have kind : isSoftResetWord .softReset d = true := by rw [isSoftResetWord, one]; rfl
  rw [exec, execSoftReset, State.takeIf_controlWord (n := 0) (c := .softReset) (by decide) rfl room head kind,
    State.writeControl_softReset_one one]
  rfl

end

/-- Settles O28: the word acts by the soft reset in progress and the slots at the take. -/
theorem softResetStartsOrCompletes : Obligations.SoftResetStartsOrCompletes := by
  intro s d rest room cell q head
  refine ⟨fun not1 => ?_, fun one busy => ?_, fun one idle holds => ?_, fun one idle empty => ?_⟩
  · rw [exec_wordWrite_controlWord (n := 0) (c := .softReset) (by decide) rfl room head,
      State.writeControl_softReset_ne not1]
    rfl
  · rw [exec_softReset room head one, State.startSoftReset_inProgress (s := q) busy]
  · rw [exec_softReset room head one, State.startSoftReset_holding (s := q) idle holds]
  · rw [exec_softReset room head one, State.startSoftReset_empty (s := q) idle empty, State.completeSoftReset,
      show q.hst.slots = [] from empty]
    rfl

/-! ### The clear words (R163, R164, R173, R178) -/

/-- Words 1 to 4 of the clear record are those of the four alert lines (R164). -/
theorem controlWord_flagClear (n : Fin 4) : controlWord 17 (1 + n.val) = .flagClear n := by
  revert n; decide

theorem State.writeControl_counterClear_one {d : List Byte} (one : leNat d = 1) (s : State) :
    s.writeControl .counterClear d = s.clearCounters := if_pos one

theorem State.writeControl_counterClear_ne {d : List Byte} (not1 : leNat d ≠ 1) (s : State) :
    s.writeControl .counterClear d = s := if_neg not1

/-- Settles O29: the take queues the write, and the clear word acts on the counters or on its line. -/
theorem clearWordsClear : Obligations.ClearWordsClear := by
  refine ⟨fun _ _ => rfl, fun s d rest room => ?_⟩
  intro cell
  refine ⟨fun head one => ?_, fun head not1 => ?_, fun n head => ?_⟩
  · have kind : isCounterClearWord .counterClear d = true := by rw [isCounterClearWord, one]; rfl
    rw [exec, execCounterClear, State.takeIf_controlWord (c := .counterClear) (by decide) rfl room head kind,
      State.writeControl_counterClear_one one]
    rfl
  · rw [exec_wordWrite_controlWord (c := .counterClear) (by decide) rfl room head,
      State.writeControl_counterClear_ne not1]
  · rw [exec, execFlagClear, State.takeIf_controlWord (by decide) (controlWord_flagClear n) room head rfl]
    rfl

end Sys2Proof.Machine
end

section
/-! PROOFS. The pulses of an alert line: the flag of an event and the pulse it starts, and the level the line drives while
a pulse runs and after it has ended. Settles O40. -/

namespace Sys2Proof.Machine

/-- The numbers of the events are their places in the table of masks and flags (R178). -/
theorem Event.number_eq_idxOf (e : Event) : e.number =
    [Event.incastOn, .stallOn, .ringRefused, .storeMust, .poolEmpty, .linkFault, .range].idxOf e := by
  cases e <;> rfl

section
variable {l : AlertLine}

/-! ### The pulse an event starts (R176) -/

/-- An event starts a pulse where none runs and its flag is enabled and clear. -/
theorem AlertLine.raise_pulse_of_starts {e : Event} {level : Bool}
    (starts : l.pulse = none ∧ l.flags &&& e.bit = 0 ∧ l.mask &&& e.bit ≠ 0) (mode : l.mode.pulseLevel? = some level) :
    (l.raise e).pulse = some { level := level, width := l.width } := by
  obtain ⟨rest, enabled⟩ := starts
  rw [(l.raise_takes e).pulse_of_starts rest ((l.triggered_raise_iff e).mpr enabled), mode]
  rfl

theorem AlertLine.raise_pulse_of_not_starts {e : Event}
    (h : ¬(l.pulse = none ∧ l.flags &&& e.bit = 0 ∧ l.mask &&& e.bit ≠ 0) ∨ l.mode.pulseLevel? = none) :
    (l.raise e).pulse = l.pulse := by
  rw [← l.triggered_raise_iff e] at h
  exact (l.raise_takes e).pulse_of_not_starts h

theorem AlertMode.pulseLevel?_of_level {m : AlertMode} (h : m = .level ∨ m = .inverted) : m.pulseLevel? = none := by
  obtain rfl | rfl := h <;> rfl

/-! ### The level a line drives (R175, R176) -/

theorem AlertLine.driven_of_running {p : Pulse} (h : l.pulse = some p) : l.driven = p.level := by
  unfold AlertLine.driven
  rw [h]

theorem AlertLine.driven_of_rest (h : l.pulse = none) : l.driven = l.restLevel := by
  unfold AlertLine.driven
  rw [h]

theorem AlertLine.condition_eq_decide (l : AlertLine) : l.condition = decide (l.flags &&& l.mask ≠ 0) := by
  rw [AlertLine.condition, Bool.eq_iff_iff, bne_iff_ne, decide_eq_true_eq]

theorem AlertLine.restLevel_level (h : l.mode = .level) : l.restLevel = decide (l.flags &&& l.mask ≠ 0) := by
  rw [AlertLine.restLevel, h, l.condition_eq_decide]

theorem AlertLine.restLevel_inverted (h : l.mode = .inverted) : l.restLevel = !decide (l.flags &&& l.mask ≠ 0) := by
  rw [AlertLine.restLevel, h, l.condition_eq_decide]

theorem AlertLine.restLevel_pulseHigh (h : l.mode = .pulseHigh) : l.restLevel = false := by
  rw [AlertLine.restLevel, h]

theorem AlertLine.restLevel_pulseLow (h : l.mode = .pulseLow) : l.restLevel = true := by
  rw [AlertLine.restLevel, h]

/-- A pulse's end leaves the resting level, which does not depend on the pulse that ran. -/
theorem AlertLine.endPulse_driven (l : AlertLine) : l.endPulse.driven = l.restLevel :=
  AlertLine.driven_of_rest (l := l.endPulse) rfl

end

/-- The line PULSE_END names drives its resting level. -/
theorem State.pulseEnd_driven (n : Fin 4) (s : State) :
    (s.alerts.set n s.alerts[n].endPulse)[n].driven = s.alerts[n].restLevel := by
  rw [Fin.getElem_fin, Vector.getElem_set_self, AlertLine.endPulse_driven]

/-- Settles O40: the flag and the pulse of an event by the laws of a line that takes events, and the end of a pulse by the
resting level of each mode. -/
theorem pulsesStartAndEnd : Obligations.PulsesStartAndEnd := by
  refine ⟨fun e => ?_, fun e l => ?_, fun n s => ⟨_, rfl, rfl, ?_⟩⟩
  · rw [Event.bit, Event.number_eq_idxOf]
  · intro starts
    refine ⟨l.raise_flags e, l.raise_mode e, l.raise_width e, l.raise_mask e, fun h mode => ?_, fun h mode => ?_,
      fun h => ?_, fun p => AlertLine.driven_of_running⟩
    · exact AlertLine.raise_pulse_of_starts h (mode ▸ rfl)
    · exact AlertLine.raise_pulse_of_starts h (mode ▸ rfl)
    · exact AlertLine.raise_pulse_of_not_starts (h.imp id AlertMode.pulseLevel?_of_level)
  · intro condition
    have rested := State.pulseEnd_driven n s
    exact ⟨fun mode => rested.trans (AlertLine.restLevel_level mode),
      fun mode => rested.trans (AlertLine.restLevel_inverted mode),
      fun mode => rested.trans (AlertLine.restLevel_pulseHigh mode),
      fun mode => rested.trans (AlertLine.restLevel_pulseLow mode)⟩

end Sys2Proof.Machine
end

section
/-! PROOFS. Request frames: the cyclic check as a shift register that takes one bit at a time, the request that a frame's
fields spell, and the frame in which the TM sends a request. Settles O8. -/

namespace Sys2Proof.Machine

/-! ### The cyclic check bit by bit (R178) -/

/-- The register of the cyclic check after one more bit. -/
def enterBit (c : BitVec 32) (bit : Bool) : BitVec 32 :=
  (c >>> 1) ^^^ if c.getLsbD 0 != bit then (0x1EDC6F41#32).reverse else 0

/-- The model's constant is the generator with its bits reversed. -/
theorem generator_reversed : (0x1EDC6F41#32).reverse = 0x82F63B78#32 := by
  refine BitVec.eq_of_getLsbD_eq_iff.mpr ?_
  simp only [BitVec.getLsbD_reverse]
  decide

/-- The model's step is the register's step on a bit that is 0. -/
theorem crcBit_toNat (c : BitVec 32) : crcBit c.toNat = (enterBit c false).toNat := by
  have half : (c >>> 1).toNat = c.toNat / 2 := by rw [BitVec.toNat_ushiftRight, Nat.shiftRight_one]
  rw [crcBit, enterBit, generator_reversed, Bool.bne_false, ← BitVec.testBit_toNat, Nat.testBit_zero]
  simp only [decide_eq_true_eq]
  split
  · rw [BitVec.toNat_xor, half]
    rfl
  · rw [BitVec.ofNat_eq_ofNat, BitVec.xor_zero, half]

/-- Bits xored into the register beforehand enter from bit 0 on, and those above bit 0 wait. -/
theorem enterBit_xor (c m : BitVec 32) : enterBit (c ^^^ m) false = enterBit c (m.getLsbD 0) ^^^ m >>> 1 := by
  rw [enterBit, enterBit, BitVec.getLsbD_xor, Bool.bne_false, BitVec.ushiftRight_xor_distrib, Bool.bne_eq_xor,
    BitVec.xor_assoc, BitVec.xor_assoc, BitVec.xor_comm (m >>> 1)]

/-- `k` steps on a register with bits xored into it are the entry of the lowest `k` of them. -/
theorem crcBits_xor (k : Nat) (c m : BitVec 32) :
    crcBits k (c ^^^ m).toNat = (((List.range k).map m.getLsbD).foldl enterBit c ^^^ m >>> k).toNat := by
  induction k generalizing c m with
  | zero => rw [BitVec.ushiftRight_zero]; rfl
  | succ k ih =>
    have later : m.getLsbD ∘ Nat.succ = (m >>> 1).getLsbD := by
      funext i
      rw [Function.comp, BitVec.getLsbD_ushiftRight, Nat.succ_eq_add_one, Nat.add_comm]
    rw [crcBits, crcBit_toNat, enterBit_xor, ih, List.range_succ_eq_map, List.map_cons, List.foldl_cons, List.map_map,
      later, ← BitVec.shiftRight_add, Nat.add_comm 1 k]

/-- A byte enters the register bit 0 first. -/
theorem crcBits_byte (c : BitVec 32) (b : Byte) :
    crcBits 8 (c.toNat ^^^ b.toNat) = (((List.range 8).map (fun i => b.getLsbD i)).foldl enterBit c).toNat := by
  have wide : (b.setWidth 32).toNat = b.toNat := BitVec.toNat_setWidth_of_le (by decide)
  have bits : (List.range 8).map (b.setWidth 32).getLsbD = (List.range 8).map (fun i => b.getLsbD i) := by
    refine List.map_congr_left fun i hi => ?_
    have : i < 32 := by have := List.mem_range.mp hi; omega
    rw [BitVec.getLsbD_setWidth, decide_eq_true this, Bool.true_and]
  have spent : b.setWidth 32 >>> 8 = 0#32 := by
    have := b.isLt
    apply BitVec.eq_of_toNat_eq
    rw [BitVec.toNat_ushiftRight, wide, Nat.shiftRight_eq_div_pow]
    exact Nat.div_eq_of_lt this
  rw [← wide, ← BitVec.toNat_xor, crcBits_xor, bits, spent, BitVec.xor_zero]

/-- Bytes enter the register one after another. -/
theorem crcRun_toNat (bytes : List Byte) (c : BitVec 32) :
    crcRun c.toNat bytes =
      ((bytes.flatMap (fun b => (List.range 8).map (fun i => b.getLsbD i))).foldl enterBit c).toNat := by
  induction bytes generalizing c with
  | nil => rfl
  | cons b bytes ih => rw [crcRun_cons, crcBits_byte, ih, List.flatMap_cons, List.foldl_append]

/-- The check word is the complement of the register that starts with every bit 1. -/
theorem crcWord_eq (bytes : List Byte) :
    crcWord bytes =
      (~~~((bytes.flatMap (fun b => (List.range 8).map (fun i => b.getLsbD i))).foldl enterBit
        (BitVec.allOnes 32))).toNat := by
  rw [crcWord, ← BitVec.xor_allOnes, BitVec.toNat_xor, ← crcRun_toNat]
  rfl

/-! ### The fields of a request frame (R178) -/

/-- The cell index of a frame is the low 26 bits of its first four bytes. -/
theorem header_cell (f : List Byte) :
    leField f 0 4 % 2 ^ 26 =
      (byteAt f 0).toNat + 2 ^ 8 * (byteAt f 1).toNat + 2 ^ 16 * (byteAt f 2).toNat +
        2 ^ 24 * ((byteAt f 3).toNat % 4) := by
  have := (byteAt f 0).isLt
  have := (byteAt f 1).isLt
  have := (byteAt f 2).isLt
  rw [leField_zero_four]
  omega

/-- The request a frame spells, by its kind. -/
theorem frameRequest_eq_ite (f : List Byte) :
    let cell := leField f 0 4 % 2 ^ 26
    let kind := requestKind (leField f 0 4)
    frameRequest f =
      if kind = 0 then .cellWrite cell ((f.drop 4).take 256)
      else if kind = 1 then .wordWrite cell ((byteAt f 4).toNat % 32) ((f.drop 5).take 8)
      else if kind = 2 then .cellRead cell (byteAt f 4)
      else .wordRead cell ((byteAt f 4).toNat % 32) (byteAt f 5) := by
  dsimp only [frameRequest]
  generalize requestKind (leField f 0 4) = kind
  rcases kind with _ | _ | _ | kind <;> rfl

/-! ### A framed request (R178) -/

/-- A header, the bytes after it, and their check word. -/
def framed (cell kind top : Nat) (payload : List Byte) : List Byte :=
  withCheckWord (requestHeader cell kind top ++ payload)

section
variable {cell kind top : Nat} {payload : List Byte}

theorem framed_eq : framed cell kind top payload =
    leBytes 4 (cell + kind * 2 ^ 26 + top * 2 ^ 28) ++
      (payload ++ leBytes 4 (crcWord (requestHeader cell kind top ++ payload))) := List.append_assoc ..

theorem framed_length : (framed cell kind top payload).length = payload.length + 8 := by
  simp only [framed_eq, List.length_append, leBytes_length]
  omega

theorem framed_drop_header : (framed cell kind top payload).drop 4 =
    payload ++ leBytes 4 (crcWord (requestHeader cell kind top ++ payload)) := by
  rw [framed_eq, List.drop_left' (leBytes_length _ _)]

/-- The payload's bytes from its byte `k` on stand in a frame from byte `4 + k` on. -/
theorem framed_take {k n : Nat} {data : List Byte} (e : payload.drop k = data) (length : data.length = n) :
    ((framed cell kind top payload).drop (4 + k)).take n = data := by
  rw [← List.drop_drop, framed_drop_header, List.drop_append, e, List.take_left' length]

/-- The payload's byte `k` stands in a frame at byte `4 + k`. -/
theorem framed_byteAt {k : Nat} {b : Byte} (e : payload[k]? = some b) :
    byteAt (framed cell kind top payload) (4 + k) = b := by
  obtain ⟨inside, -⟩ := List.getElem?_eq_some_iff.mp e
  rw [byteAt, List.getD_eq_getElem?_getD, ← List.getElem?_drop, framed_drop_header, List.getElem?_append_left inside,
    e, Option.getD_some]

/-- What a header holds is read back from its frame, the four top bits passed over. -/
theorem framed_header (inCell : cell < 2 ^ 26) (inKind : kind < 4) (inTop : top < 16) :
    leField (framed cell kind top payload) 0 4 % 2 ^ 26 = cell ∧
      requestKind (leField (framed cell kind top payload) 0 4) = kind := by
  have header : leField (framed cell kind top payload) 0 4 = cell + kind * 2 ^ 26 + top * 2 ^ 28 := by
    rw [framed_eq, leField_leBytes_append, Nat.mod_eq_of_lt (by omega)]
  rw [header, requestKind]
  omega

/-- A framed request of the length of its kind passes its check, and its fields are read from their places. -/
theorem decodeFrame_framed (inCell : cell < 2 ^ 26) (inKind : kind < 4) (inTop : top < 16)
    (length : payload.length + 8 = requestLength kind) :
    let f := framed cell kind top payload
    decodeFrame f = some (
      if kind = 0 then .cellWrite cell ((f.drop 4).take 256)
      else if kind = 1 then .wordWrite cell ((byteAt f 4).toNat % 32) ((f.drop 5).take 8)
      else if kind = 2 then .cellRead cell (byteAt f 4)
      else .wordRead cell ((byteAt f 4).toNat % 32) (byteAt f 5)) := by
  intro f
  obtain ⟨hcell, hkind⟩ : leField f 0 4 % 2 ^ 26 = cell ∧ requestKind (leField f 0 4) = kind :=
    framed_header inCell inKind inTop
  have passes : framePasses f = true := by
    refine (framePasses_iff f).mpr ⟨?_, _, withCheckWord_eq _⟩
    rw [← requestKind_header, hkind, framed_length, length, requestLength_eq]
  rw [decodeFrame, if_pos passes, frameRequest_eq_ite, hcell, hkind]

end

/-- The low five bits of a word byte are the word, whatever bits 7..5 hold. -/
theorem wordByte_word {w : Nat} (inWord : w < 32) (pad : Nat) : (BitVec.ofNat 8 (w + 32 * pad)).toNat % 32 = w := by
  rw [BitVec.toNat_ofNat]
  omega

/-- A framed request passes its check and decodes to itself. -/
theorem decodeFrame_requestFrame {top : Nat} (pad : Nat) {r : Request} (inTop : top < 16) (range : r.InRange) :
    decodeFrame (requestFrame top pad r) = some r := by
  cases r with
  | cellWrite cell data =>
    obtain ⟨inCell, length⟩ := range
    refine (decodeFrame_framed inCell (by decide) inTop (congrArg (· + 8) length)).trans ?_
    rw [if_pos rfl, framed_take (k := 0) List.drop_zero length]
  | wordWrite cell w data =>
    obtain ⟨inCell, inWord, length⟩ := range
    refine (decodeFrame_framed (payload := BitVec.ofNat 8 (w + 32 * pad) :: data) inCell (by decide) inTop
      (congrArg (· + 9) length)).trans ?_
    rw [if_neg (by decide), if_pos rfl, framed_byteAt (k := 0) rfl, wordByte_word inWord,
      framed_take (k := 1) (data := data) rfl length]
  | cellRead cell tag =>
    refine (decodeFrame_framed (payload := [tag]) range (by decide) inTop rfl).trans ?_
    rw [if_neg (by decide), if_neg (by decide), if_pos rfl, framed_byteAt (k := 0) rfl]
  | wordRead cell w tag =>
    obtain ⟨inCell, inWord⟩ := range
    refine (decodeFrame_framed (payload := [BitVec.ofNat 8 (w + 32 * pad), tag]) inCell (by decide) inTop
      rfl).trans ?_
    rw [if_neg (by decide), if_neg (by decide), if_neg (by decide), framed_byteAt (k := 0) rfl,
      framed_byteAt (k := 1) rfl, wordByte_word inWord]

/-- Settles O8: the check word by the entry of one bit, the fields by their places, and the round trip by kind. The bits
passed over are never looked at, so the word byte needs no bound on its pad. -/
theorem requestFramesDecode : Obligations.RequestFramesDecode := by
  refine ⟨crcWord_eq, fun f => ?_, fun _ pad _ inTop _ range => decodeFrame_requestFrame pad inTop range⟩
  intro b cell
  rw [frameRequest_eq_ite, header_cell, requestKind_header]

end Sys2Proof.Machine
end

section
/-! PROOFS. The power-on reset, block by block, and its end at the rise of RSTN. Settles O2. -/

namespace Sys2Proof.Machine

/-- Every alert line in a power-on reset. -/
theorem State.reset_alert (l : Fin 4) : State.reset.alerts[l] = AlertLine.reset := by simp [State.reset]

/-- A line at its power-on values drives low: its mode is level and no flag is set. -/
theorem AlertLine.reset_driven : AlertLine.reset.driven = false := rfl

/-- The array after a cut-off: nothing has changed, or the write in flight has landed (R123, log entry 4). -/
theorem Dram.cutOff_cases (d : Dram) (f : Option InFlight) :
    d.cutOff f = d ∨ ∃ w, f.bind InFlight.write? = some w ∧ d.cutOff f = d.store w.1 w.2 := by
  unfold Dram.cutOff
  split
  · rename_i w inFlight
    split
    · exact .inr ⟨w, inFlight, rfl⟩
    · exact .inl rfl
  · exact .inl rfl

/-- A fall of RSTN leaves the array's bytes as the cut-off does (R123). -/
theorem Dram.powerOn_rstnFalls_mem (d : Dram) (f : Option InFlight) :
    (d.powerOn f .rstnFalls).mem = (d.cutOff f).mem := rfl

/-- The state in a power-on reset, RSTN held low. -/
theorem exec_powerOnReset (cause : ResetCause) (s : State) : exec (.powerOnReset cause) s =
    .next { State.reset with dram := s.dram.powerOn s.dcc.inFlight cause, pending := s.pending } := rfl

/-- RSTN_RISE while RSTN is low samples CAPSEL. -/
theorem exec_rstnRise {s : State} (capsel : Bool) (low : s.rstnLow = true) : exec (.rstnRise capsel) s =
    .next { s with rstnLow := false, capacity := capselCapacity capsel, dcc.state := .init } :=
  congrArg Host.Outcome.next (if_pos low)

/-- Settles O2: the state of a power-on reset is `State.reset` but for the array and the queue, and each block of it has
the values of its reset table. -/
theorem powerOnResetAndItsEnd : Obligations.PowerOnResetAndItsEnd := by
  refine ⟨fun cause s => ⟨_, exec_powerOnReset cause s, rfl, rfl, rfl, rfl, rfl, State.reset_ring, rfl, rfl, rfl, rfl,
    rfl, rfl, fun l => ?_, rfl, rfl, ?_⟩, fun capsel s low => exec_rstnRise capsel low, rfl, rfl, rfl, rfl⟩
  · exact ⟨State.reset_alert l, (congrArg AlertLine.driven (State.reset_alert l)).trans AlertLine.reset_driven⟩
  · rintro rfl
    rw [Dram.powerOn_rstnFalls_mem]
    exact (s.dram.cutOff_cases s.dcc.inFlight).imp (congrArg Dram.mem)
      fun ⟨w, inFlight, lands⟩ => ⟨w, inFlight, congrArg Dram.mem lands⟩

end Sys2Proof.Machine
end

section
/-! PROOFS. The step on a queue with a command at its front. Settles O1. -/

namespace Sys2Proof.Machine

/-- A queue with a front command: the step takes it and performs it (log entry 5). -/
theorem step_of_pending_cons {s : State} {c : Instr} {rest : List Instr} (front : s.pending = c :: rest) :
    step s = exec c { s with pending := rest } := by
  unfold step
  rw [front]

/-- Settles O1: the front of the queue is the one given, and the rest replaces the whole queue. -/
theorem stepRunsFrontCommand : Obligations.StepRunsFrontCommand :=
  fun c rest s => step_of_pending_cons (s := { s with pending := c :: rest }) rfl

end Sys2Proof.Machine
end
